-- ==== Sys2Proof/Word.lean ====
section
/-! DEFINITION. The widths of the block: bytes, nibbles, 2-bit fields and 16-bit registers (00_scope.md R7, R9). -/

namespace Sys2Proof

/-- One byte of the wire or of the payload buffer, bit 0 least significant (R9). -/
abbrev Byte := BitVec 8

/-- A nibble: a sync pattern or the high part of a length (R7). -/
abbrev Nibble := BitVec 4

/-- A 2-bit field of the control byte: the opcode, or the two unused bits (R7, R81). -/
abbrev Field2 := BitVec 2

/-- A 16-bit unsigned register: `length`, `address`, the cursors (R7, R28 to R30). -/
abbrev Word16 := BitVec 16

end Sys2Proof
end

