-- ==== Sys2Proof/Config.lean ====
section
/-! DEFINITION. The implementation parameters of 00_scope.md R6 as one record, their constraints, and the two
reference configurations of R8. -/

namespace Sys2Proof

/-- The configuration record `cfg` of R6, fixed for the life of an instance. -/
structure Cfg where
  /-- `SYNC1_NIBBLE`, the control-sync pattern. -/
  sync1 : Nibble
  /-- `SYNC2_NIBBLE`, the second sync pattern; it may equal `sync1`. -/
  sync2 : Nibble
  /-- `OPC_WRITE_INIT`. -/
  opcWriteInit : Field2
  /-- `OPC_READ_INIT`. -/
  opcReadInit : Field2
  /-- `OPC_DATA_ACCESS`. -/
  opcDataAccess : Field2
  /-- `OPC_STATUS_READ`. -/
  opcStatusRead : Field2
  /-- `MAX_FRAME_LEN`: the payload buffer's capacity and the largest legal length. -/
  maxFrameLen : Nat
  deriving DecidableEq, Repr

/-- The constraints of R6: the four codes pairwise distinct, `1 <= MAX_FRAME_LEN <= 4095`. -/
abbrev Cfg.Valid (c : Cfg) : Prop :=
  (c.opcWriteInit ≠ c.opcReadInit ∧ c.opcWriteInit ≠ c.opcDataAccess ∧
    c.opcWriteInit ≠ c.opcStatusRead ∧ c.opcReadInit ≠ c.opcDataAccess ∧
    c.opcReadInit ≠ c.opcStatusRead ∧ c.opcDataAccess ≠ c.opcStatusRead) ∧
  1 ≤ c.maxFrameLen ∧ c.maxFrameLen ≤ 4095

/-- `CFG_REF` of R8. -/
def Cfg.ref : Cfg :=
  { sync1 := 0xA, sync2 := 0x5, opcWriteInit := 0, opcReadInit := 1, opcDataAccess := 2,
    opcStatusRead := 3, maxFrameLen := 256 }

/-- `CFG_TINY` of R8. -/
def Cfg.tiny : Cfg := { Cfg.ref with maxFrameLen := 4 }

end Sys2Proof
end

