-- ==== Sys2Proof/Syntax.lean ====
section
/-! DEFINITION. Instructions as syntax: the decoder states that select a byte's format (10_state.md R21, R22,
30_encoding.md R97), one constructor of `Instr` per row of spec/opcode_table.json, and the frames and
transactions a master composes from bytes (30_encoding.md R86, R95, R96). -/

namespace Sys2Proof

/-- The eight values of `state` (R21), in the order the spec lists them. -/
inductive DecState where
  | awaitControl | awaitSync | awaitLenLow | awaitAddrHi | awaitAddrLo
  | transferRead | transferWrite | awaitStatusSent
  deriving DecidableEq, Repr

/-- The four values of `queued` (R22); by 90_conflicts.md C3 it never holds an address state. -/
inductive Queued where
  | awaitLenLow | transferRead | transferWrite | awaitStatusSent
  deriving DecidableEq, Repr

/-- A byte of an INIT frame other than its sync byte (R86): the control byte with its two unused bits
(R81), then `lenLo`, `addrHi`, `addrLo` (R83, R84). -/
inductive InitByte where
  | ctrl (unused : Field2)
  | lenLow (b : Byte)
  | addrHi (b : Byte)
  | addrLo (b : Byte)
  deriving DecidableEq, Repr

/-- A byte of a data frame other than its sync byte (R86): the control byte, or one data or
don't-care byte (R85). -/
inductive DataByte where
  | ctrl (unused : Field2)
  | data (b : Byte)
  deriving DecidableEq, Repr

/-- A byte of a status frame other than its sync byte (R86). -/
inductive PollByte where
  | ctrl (unused : Field2)
  | dontCare (b : Byte)
  deriving DecidableEq, Repr

/-- One received byte as the decoder reads it: one constructor per row of spec/opcode_table.json. A row
that is a frame has one form per byte of its own; the sync byte has a row of its own. -/
inductive Instr where
  /-- Row WINIT: R112, and R118, R119, R120 for the bytes that follow. -/
  | winit (byte : InitByte)
  /-- Row RINIT: R113, and R118, R119, R120 for the bytes that follow. -/
  | rinit (byte : InitByte)
  /-- Row RDATA: R114, and R122 for the bytes that follow. -/
  | rdata (byte : DataByte)
  /-- Row WDATA: R115, and R121 for the bytes that follow. -/
  | wdata (byte : DataByte)
  /-- Row DATA_ACCESS__no_length: R127. -/
  | dataAccessNoLength (unused : Field2)
  /-- Row STATUS: R116, and R123 for the byte that follows. -/
  | status (byte : PollByte)
  /-- Row ignored_byte: R111, R91. -/
  | ignoredByte (high low : Nibble)
  /-- Row sync_byte: R117; `pattern` is compared with `SYNC2_NIBBLE`. -/
  | syncByte (pattern low : Nibble)
  deriving DecidableEq, Repr

/-- What selects the format of the next byte (R97): the decoder state, the mode bit `direction`, and
whether `length` has a value (R127). -/
structure DecodeMode where
  state : DecState
  direction : Bool
  hasLength : Bool
  deriving DecidableEq, Repr

/-- The frames of R86 in the notation of R95. -/
inductive Frame where
  | winit (len addr : Word16)
  | rinit (len addr : Word16)
  | wdata (len : Word16) (data : List Byte)
  | rdata (len : Word16)
  | status
  | raw (bytes : List Byte)
  deriving DecidableEq, Repr

/-- The pseudo-instructions of R96: the transactions a master composes from frames. -/
inductive Transaction where
  | write (addr : Word16) (data : List Byte)
  | read (addr len : Word16)
  | poll
  deriving DecidableEq, Repr

/-- One step of what a pseudo-instruction or a program stands for (R96): a frame, one call of the dispatcher, or
"repeat STATUS until the returned byte has bit `flag` set", after which bit `fail` tells failure. -/
inductive ScriptStep where
  | frame (f : Frame)
  | dispatch
  | pollUntil (flag fail : Fin 8)
  deriving DecidableEq, Repr

end Sys2Proof
end

