-- ==== Sys2Proof/WellFormed.lean ====
section
/-! DEFINITION. Which instructions, frames and transactions are well formed under a configuration (30_encoding.md R86,
R87, R91, R95, R96), and the condition column of spec/opcode_table.json: in which decoding mode a row's byte is read. -/

namespace Sys2Proof

/-- A length a frame may carry: `0 < len <= MAX_FRAME_LEN` (R87). -/
def Cfg.allowsLength (c : Cfg) (len : Word16) : Bool :=
  decide (0 < len.toNat) && decide (len.toNat ≤ c.maxFrameLen)

/-- An ignored byte's high nibble differs from `SYNC1_NIBBLE` (R91); every other field may take every value. -/
def Instr.wellFormed (c : Cfg) : Instr → Bool
  | .ignoredByte high _ => decide (high ≠ c.sync1)
  | .winit _ | .rinit _ | .rdata _ | .wdata _ | .dataAccessNoLength _ | .status _ | .syncByte _ _ => true

/-- A frame of R86, R95: a legal length, and as many data bytes as the length says. -/
def Frame.wellFormed (c : Cfg) : Frame → Bool
  | .winit len _ => c.allowsLength len
  | .rinit len _ => c.allowsLength len
  | .wdata len data => c.allowsLength len && decide (data.length = len.toNat)
  | .rdata len => c.allowsLength len
  | .status => true
  | .raw _ => true

/-- A transaction of R96: between one byte and a whole buffer of them. -/
def Transaction.wellFormed (c : Cfg) : Transaction → Bool
  | .write _ data => decide (0 < data.length) && decide (data.length ≤ c.maxFrameLen)
  | .read _ len => c.allowsLength len
  | .poll => true

/-- The form of a byte of an INIT frame is read in this decoder state (R110). -/
def InitByte.readIn : InitByte → DecState
  | .ctrl _ => .awaitControl
  | .lenLow _ => .awaitLenLow
  | .addrHi _ => .awaitAddrHi
  | .addrLo _ => .awaitAddrLo

/-- The condition column of spec/opcode_table.json. The bytes of an INIT frame after its sync byte belong to
WINIT or RINIT as `direction` was latched by the frame's control byte (R23). -/
def DecodeMode.admits (m : DecodeMode) : Instr → Bool
  | .winit (.ctrl _) => m.state == .awaitControl
  | .rinit (.ctrl _) => m.state == .awaitControl
  | .winit b => m.state == b.readIn && !m.direction
  | .rinit b => m.state == b.readIn && m.direction
  | .rdata (.ctrl _) => m.state == .awaitControl && m.direction && m.hasLength
  | .rdata (.data _) => m.state == .transferRead
  | .wdata (.ctrl _) => m.state == .awaitControl && !m.direction && m.hasLength
  | .wdata (.data _) => m.state == .transferWrite
  | .dataAccessNoLength _ => m.state == .awaitControl && !m.hasLength
  | .status (.ctrl _) => m.state == .awaitControl
  | .status (.dontCare _) => m.state == .awaitStatusSent
  | .ignoredByte _ _ => m.state == .awaitControl
  | .syncByte _ _ => m.state == .awaitSync

end Sys2Proof
end

