-- ==== Sys2Proof/Decode.lean ====
section
/-! DEFINITION. The decoder (total on any bytes; the empty list is rejected by name), and after it the encoder,
both from 30_encoding.md R80 to R97 and 40_frame_decoder.md R110, R111; the bytes of the frames of R95. -/

namespace Sys2Proof

/-- `b[7:4]` (R9). -/
def highNibble (b : Byte) : Nibble := b.extractLsb' 4 4

/-- `b[3:0]` (R9). -/
def lowNibble (b : Byte) : Nibble := b.extractLsb' 0 4

/-- The opcode field of a control byte, bits 1:0 (R81). -/
def opcodeField (b : Byte) : Field2 := b.extractLsb' 0 2

/-- Bits 3:2 of a control byte: neither checked nor used (R81, R93). -/
def unusedField (b : Byte) : Field2 := b.extractLsb' 2 2

/-- Why a byte list is rejected. -/
inductive DecodeError where
  /-- There is no byte to decode. -/
  | noByte
  deriving DecidableEq, Repr

/-- A byte received in `AWAIT_CONTROL` (R111): the opcode if the high nibble is `SYNC1_NIBBLE`, DATA_ACCESS
being read by `direction` and by whether `length` has a value; else an ignored byte. -/
def decodeControl (c : Cfg) (m : DecodeMode) (b : Byte) : Instr :=
  if highNibble b = c.sync1 then
    if opcodeField b = c.opcWriteInit then .winit (.ctrl (unusedField b))
    else if opcodeField b = c.opcReadInit then .rinit (.ctrl (unusedField b))
    else if opcodeField b = c.opcDataAccess then
      if m.hasLength then
        if m.direction then .rdata (.ctrl (unusedField b)) else .wdata (.ctrl (unusedField b))
      else .dataAccessNoLength (unusedField b)
    else .status (.ctrl (unusedField b))
  else .ignoredByte (highNibble b) (lowNibble b)

/-- A byte of an INIT frame after its sync byte belongs to the row `direction` names (R23, R97). -/
def initInstr (direction : Bool) (b : InitByte) : Instr :=
  if direction then .rinit b else .winit b

/-- One received byte as the decoder reads it in its mode (R110, R97): total, every byte value in every state. -/
def decodeByte (c : Cfg) (m : DecodeMode) (b : Byte) : Instr :=
  match m.state with
  | .awaitControl => decodeControl c m b
  | .awaitSync => .syncByte (highNibble b) (lowNibble b)
  | .awaitLenLow => initInstr m.direction (.lenLow b)
  | .awaitAddrHi => initInstr m.direction (.addrHi b)
  | .awaitAddrLo => initInstr m.direction (.addrLo b)
  | .transferRead => .rdata (.data b)
  | .transferWrite => .wdata (.data b)
  | .awaitStatusSent => .status (.dontCare b)

/-- The first instruction of a byte list and the rest (R80: one byte each). -/
def decode (c : Cfg) (m : DecodeMode) : List Byte → Except DecodeError (Instr × List Byte)
  | [] => .error .noByte
  | b :: rest => .ok (decodeByte c m b, rest)

/-- `SSSSxxOO` (R81): the control byte of an opcode code with its two unused bits. -/
def controlByte (c : Cfg) (code unused : Field2) : Byte := c.sync1 ++ unused ++ code

/-- `TTTTHHHH` (R82). -/
def nibblePair (high low : Nibble) : Byte := high ++ low

/-- The byte of an INIT frame, given the frame's opcode code (R83, R84). -/
def encodeInit (c : Cfg) (code : Field2) : InitByte → Byte
  | .ctrl x => controlByte c code x
  | .lenLow b => b
  | .addrHi b => b
  | .addrLo b => b

/-- The byte of a data frame (R85). -/
def encodeData (c : Cfg) : DataByte → Byte
  | .ctrl x => controlByte c c.opcDataAccess x
  | .data b => b

/-- The byte of a status frame (R85, R86). -/
def encodePoll (c : Cfg) : PollByte → Byte
  | .ctrl x => controlByte c c.opcStatusRead x
  | .dontCare b => b

/-- The byte of an instruction. -/
def encodeByte (c : Cfg) : Instr → Byte
  | .winit b => encodeInit c c.opcWriteInit b
  | .rinit b => encodeInit c c.opcReadInit b
  | .rdata b => encodeData c b
  | .wdata b => encodeData c b
  | .dataAccessNoLength x => controlByte c c.opcDataAccess x
  | .status b => encodePoll c b
  | .ignoredByte high low => nibblePair high low
  | .syncByte pattern low => nibblePair pattern low

/-- The bytes of a well-formed instruction. -/
def encode (c : Cfg) (i : Instr) : List Byte := [encodeByte c i]

/-- `len[11:8]`, the nibble the sync byte carries (R82, R95). -/
def lengthNibble (len : Word16) : Nibble := len.extractLsb' 8 4

/-- `SYNC|lenHi` of a frame of length `len` (R86, R95). -/
def syncFor (c : Cfg) (len : Word16) : Byte := nibblePair c.sync2 (lengthNibble len)

/-- The five bytes of an INIT frame (R86, R95). -/
def initFrameBytes (c : Cfg) (code : Field2) (len addr : Word16) : List Byte :=
  [controlByte c code 0, syncFor c len, len.extractLsb' 0 8, addr.extractLsb' 8 8, addr.extractLsb' 0 8]

/-- The bytes of a frame (R95): the don't-care bytes are written 00. -/
def frameBytes (c : Cfg) : Frame → List Byte
  | .winit len addr => initFrameBytes c c.opcWriteInit len addr
  | .rinit len addr => initFrameBytes c c.opcReadInit len addr
  | .wdata len data => controlByte c c.opcDataAccess 0 :: syncFor c len :: data
  | .rdata len => controlByte c c.opcDataAccess 0 :: syncFor c len :: List.replicate len.toNat 0
  | .status => [controlByte c c.opcStatusRead 0, nibblePair c.sync2 0, 0]
  | .raw bytes => bytes

/-- The expansion column of R96: bit 1 answers a write and bit 4 its failure, bit 0 a read and bit 5 its failure. -/
def transactionSteps : Transaction → List ScriptStep
  | .write addr data =>
    [.frame (.winit (BitVec.ofNat 16 data.length) addr), .frame (.wdata (BitVec.ofNat 16 data.length) data),
      .pollUntil 1 4]
  | .read addr len => [.frame (.rinit len addr), .pollUntil 0 5, .frame (.rdata len)]
  | .poll => [.frame .status]

/-- The bytes of a word as spec/opcode_table.json numbers its bits: the first byte is bits 7:0. At least one
byte, since every instruction has one (R80). -/
def wordBytes (nbits w : Nat) : List Byte :=
  BitVec.ofNat 8 w ::
    (List.range ((nbits + 7) / 8 - 1)).map fun k => BitVec.ofNat 8 (w >>> (8 * (k + 1)))

/-- The decoder state in which the table reads a row's first byte: `AWAIT_SYNC` for the row sync_byte, whose
high nibble is `SYNC2_NIBBLE`, `AWAIT_CONTROL` for every other row (the table's condition column). A nibble
that is both patterns is read as a control byte. DESIGN CHOICE (log entry 10). -/
def tableState (c : Cfg) (b : Byte) : DecState :=
  if highNibble b = c.sync2 ∧ highNibble b ≠ c.sync1 then .awaitSync else .awaitControl

/-- The decoding mode of a table word right after reset (R47): `direction` false, `length` without value. So the
word that the rows RDATA, WDATA and DATA_ACCESS__no_length share reads as the last of them (R127). -/
def tableMode (c : Cfg) (b : Byte) : DecodeMode :=
  { state := tableState c b, direction := false, hasLength := false }

/-- The instruction the decoder reads from a table word under `CFG_REF`, the configuration of the table's
bytes (R8). -/
def decodeTableWord (nbits w : Nat) : Option Instr :=
  match decode Cfg.ref (tableMode Cfg.ref (BitVec.ofNat 8 w)) (wordBytes nbits w) with
  | .ok (i, _) => some i
  | .error _ => none

end Sys2Proof
end

