-- ==== Sys2Proof/Machine/State.lean ====
section
/-! DEFINITION. The state of one instance as plain data: every element of 10_state.md R20, the configuration
(00_scope.md R6), and the model's own fields for the other agents and the environment (R12, R46); the reasons a
step can stop; the state right after reset (R47). -/

namespace Sys2Proof.Machine

/-- The transmit mode (10_state.md R31). -/
inductive TxMode where
  | idle | data | status
  deriving DecidableEq, Repr

/-- A byte memory: (index, byte) pairs, indices strictly rising, no byte equal to what an unlisted index reads as
(`Memory.wf`, Ops.lean). -/
abbrev Memory := List Host.Cell

/-- The snapshot an invocation carries (00_scope.md R13). -/
structure Snapshot where
  ovr : Bool
  udr : Bool
  rx : Option Byte
  txReady : Bool
  deriving DecidableEq, Repr

/-- The collaborator's answer to a call (43_dispatcher.md R174); `bytes` is used by `RegRead` alone. -/
structure RegAnswer where
  failed : Bool
  bytes : List Byte
  deriving DecidableEq, Repr

/-- A call made to the collaborator (R174): what the outside world sees of the dispatcher. -/
inductive RegCall where
  | read (len addr : Word16)
  | write (len addr : Word16) (bytes : List Byte)
  deriving DecidableEq, Repr

/-- What the environment delivers next: an invocation of the block (R13), the main context's next access with the
answer the collaborator gives if that access is a call (R174, R175), or a reset with the buffer contents it
leaves (R47, R210). -/
inductive Event where
  | invoke (snap : Snapshot)
  | main (answer : RegAnswer)
  | reset (contents : List Byte)
  deriving DecidableEq, Repr

/-- The dispatcher's place in the program order of R175, with the locals it has read. Each constructor names the
access it makes next; `idle` is a new call's first access, the read of `readDataReq`. -/
inductive DispPc where
  /-- Next: read `readDataReq`. No call is in progress. -/
  | idle
  /-- Next: read `length` for the read branch. -/
  | readLength
  /-- Next: read `address` for the read branch. -/
  | readAddress (len : Word16)
  /-- Next: call `RegRead`. -/
  | regRead (len addr : Word16)
  /-- Next: store the first of `rest` at `index`. -/
  | storePayload (index : Nat) (rest : List Byte) (failed : Bool)
  /-- Next: write `readRegError`. -/
  | writeReadError (failed : Bool)
  /-- Next: clear `readDataReq`. -/
  | clearReadReq
  /-- Next: set `readDataReady`. -/
  | setReadReady
  /-- Next: read `writeDataReq`. -/
  | testWriteReq
  /-- Next: read `length` for the write branch. -/
  | writeLength
  /-- Next: read `address` for the write branch. -/
  | writeAddress (len : Word16)
  /-- Next: load the payload byte at index `got.length`. -/
  | loadPayload (len addr : Word16) (got : List Byte)
  /-- Next: call `RegWrite`. -/
  | regWrite (len addr : Word16) (bytes : List Byte)
  /-- Next: write `writeRegError`. -/
  | writeWriteError (failed : Bool)
  /-- Next: clear `writeDataReq`. -/
  | clearWriteReq
  /-- Next: set `writeDataComplete`. -/
  | setWriteComplete
  deriving DecidableEq, Repr

/-- The model's faults. -/
inductive Fault where
  /-- `DataAccessBeforeInit` (40_frame_decoder.md R127, 60_exceptions.md R204): raised by the DATA_ACCESS control
  byte while `length` has no value. Safe: the model stops where the hardware may do anything (log entry 3). -/
  | dataAccessBeforeInit
  /-- An access to a payload index that does not exist (20_memory.md R61): raised by TRANSFER_WRITE, by TX in DATA
  mode and by the dispatcher, in states that no run reaches (10_state.md R44 (c), (e)). Safe (log entry 12). -/
  | payloadIndexOutOfRange (index : Nat)
  /-- `length` read where R44 (c), (d), (g) says it has a value: raised by a transfer byte and by the dispatcher, in
  states that no run reaches. Safe (log entry 12). -/
  | lengthHasNoValue
  /-- `address` read where R44 (g) says it has a value: raised by the dispatcher, in states that no run reaches.
  Safe (log entry 12). -/
  | addressHasNoValue
  deriving DecidableEq, Repr

/-- The model's refusals. -/
inductive Refusal where
  /-- An instruction without a meaning yet, by its mnemonic in spec/opcode_table.json: raised by exec's arms. Safe. -/
  | notModelled (mnemonic : String)
  /-- An answer of `RegRead` that is not `len` bytes, which R174 excludes: raised by the dispatcher's call, an input
  the model does not accept. Safe (log entry 11). -/
  | answerNotOfLength (len : Word16) (got : Nat)
  deriving DecidableEq, Repr

/-- One instance (R20, R49). -/
structure State where
  /-- The configuration (00_scope.md R6): a parameter, written by no step. -/
  cfg : Cfg
  /-- The decoder state, the "program counter" (R21). -/
  state : DecState
  /-- The state `AWAIT_SYNC` will go to (R22). -/
  queued : Queued
  /-- True when the pending transaction is a read (R23). -/
  direction : Bool
  /-- The held high nibble of a length (R24). -/
  lenHi : Nibble
  /-- The live transfer length, or no value (R25). -/
  length : Option Word16
  /-- The held high byte of an address (R26). -/
  addrHi : Byte
  /-- The live register address, or no value (R27). -/
  address : Option Word16
  /-- The receive-fill index (R28). -/
  wrCursor : Word16
  /-- The count of bytes received in a read data phase (R29). -/
  rdCursor : Word16
  /-- The transmit-drain index (R30). -/
  txCursor : Word16
  /-- The transmit mode (R31). -/
  txMode : TxMode
  /-- The computed status byte (R32). -/
  statusByte : Byte
  /-- The payload buffer (R33). -/
  payload : Memory
  /-- R34. -/
  readDataReq : Bool
  /-- R35. -/
  writeDataReq : Bool
  /-- Status bit 0 (R36). -/
  readDataReady : Bool
  /-- Status bit 1 (R37). -/
  writeDataComplete : Bool
  /-- Status bit 5 (R38). -/
  readRegError : Bool
  /-- Status bit 4 (R39). -/
  writeRegError : Bool
  /-- Status bit 2 (R40). -/
  rxOverRunError : Bool
  /-- Status bit 3 (R41). -/
  txUnderRunError : Bool
  /-- The model's own: the dispatcher's place in its program (43_dispatcher.md R175). -/
  disp : DispPc
  /-- The model's own: the collaborator calls made since reset, oldest first (R174). -/
  regCalls : List RegCall
  /-- The model's own: the bytes `T_0, T_1, ...` emitted since reset, oldest first (42_transmit_sequencer.md R165). -/
  emitted : List Byte
  /-- The model's own: what the environment delivers, next first (R12, R46). -/
  events : List Event
  deriving DecidableEq, Repr

/-- The state right after reset (R47) under the reference configuration, with nothing listed in the payload buffer
and no event scheduled. DESIGN CHOICE (unsafe): `cfg` (log entry 1), the buffer's contents (log entry 2); the
general reset is `State.resetWith` (Ops.lean). -/
def State.reset : State :=
  { cfg := Cfg.ref
    state := .awaitControl
    queued := .awaitLenLow
    direction := false
    lenHi := 0
    length := none
    addrHi := 0
    address := none
    wrCursor := 0
    rdCursor := 0
    txCursor := 0
    txMode := .idle
    statusByte := 0
    payload := []
    readDataReq := false
    writeDataReq := false
    readDataReady := false
    writeDataComplete := false
    readRegError := false
    writeRegError := false
    rxOverRunError := false
    txUnderRunError := false
    disp := .idle
    regCalls := []
    emitted := []
    events := [] }

/-- The machine's answer to a step. -/
abbrev Result := Host.Outcome State Fault Refusal

end Sys2Proof.Machine
end

