-- ==== Sys2Proof/Machine/Operands.lean ====
section
/-! DEFINITION. The operand forms: length and address assembly (30_encoding.md R87, R88), the range check of a length
(40_frame_decoder.md R118, R125), the cursors' steps (R121, R122, 42_transmit_sequencer.md R162). -/

namespace Sys2Proof.Machine

/-- `zext_16(lenHi : b)` (R87). -/
def lengthCandidate (hi : Nibble) (b : Byte) : Word16 := (hi ++ b).setWidth 16

/-- `0 < cand` and `cand <= MAX_FRAME_LEN`, unsigned (R118, R125 (c)). -/
def lengthIsValid (c : Cfg) (cand : Word16) : Bool :=
  decide (0 < cand.toNat) && decide (cand.toNat ≤ c.maxFrameLen)

/-- `addrHi : b` (R88). -/
def addressFrom (hi : Byte) (b : Byte) : Word16 := hi ++ b

/-- The incremented cursor of a transfer, 16-bit (R125 (d)). -/
def nextCursor (cursor : Word16) : Word16 := cursor + 1

/-- The transmit cursor after a load: it wraps at the buffer's capacity (42_transmit_sequencer.md R162). -/
def nextTxCursor (c : Cfg) (cursor : Word16) : Word16 :=
  if cursor.toNat + 1 = c.maxFrameLen then 0 else cursor + 1

end Sys2Proof.Machine
end

