-- ==== Sys2Proof/Machine/Ops.lean ====
section
/-! DEFINITION. The named operations over memory and registers that the rules share: sequencing, the payload
buffer (20_memory.md R61), the response to a framing error (60_exceptions.md R182, R183, R193), emission, reset
(70_reset_and_hazards.md R210). -/

namespace Sys2Proof.Machine

/-- Go on from a next state; a fault or a refusal ends the step (60_exceptions.md R204). -/
def andThen (r : Result) (f : State → Result) : Result :=
  match r with
  | .next s => f s
  | .fault e => .fault e
  | .refused e => .refused e

/-- What an index with no entry reads as. DESIGN CHOICE (unsafe, log entry 2): 0x00; a buffer with other contents
lists them (`State.resetWith`). -/
def Memory.unlisted : Byte := 0x00

/-- The byte at an index. -/
def Memory.read : Memory → Nat → Byte
  | [], _ => Memory.unlisted
  | (k, v) :: rest, a => if k = a then v else Memory.read rest a

/-- An entry in front of a memory, left out where it says what an unlisted index reads as anyway. -/
def Memory.cons (a : Nat) (v : Byte) (m : Memory) : Memory :=
  if v = Memory.unlisted then m else (a, v) :: m

/-- The memory with one byte written, in canonical form. -/
def Memory.write : Memory → Nat → Byte → Memory
  | [], a, v => Memory.cons a v []
  | (k, w) :: rest, a, v =>
    if a < k then Memory.cons a v ((k, w) :: rest)
    else if a = k then Memory.cons a v rest
    else (k, w) :: Memory.write rest a v

/-- The memory with a list of bytes written from an index on, ascending. -/
def Memory.writeList (m : Memory) (a : Nat) : List Byte → Memory
  | [] => m
  | b :: rest => Memory.writeList (Memory.write m a b) (a + 1) rest

/-- `n` bytes from an index on, ascending. -/
def Memory.readList (m : Memory) (a n : Nat) : List Byte :=
  (List.range n).map fun i => Memory.read m (a + i)

/-- Entries from index `lo` on, below `hi`, indices strictly rising, no entry equal to what an unlisted index reads
as. -/
def Memory.wfFrom (hi : Nat) : Nat → Memory → Bool
  | _, [] => true
  | lo, (k, v) :: rest =>
    decide (lo ≤ k) && decide (k < hi) && decide (v ≠ Memory.unlisted) && Memory.wfFrom hi (k + 1) rest

/-- The canonical form of a buffer of `size` bytes. -/
def Memory.wf (size : Nat) (m : Memory) : Bool := Memory.wfFrom size 0 m

/-- `payload[i]` (R61); no value at an index that does not exist. -/
def payloadLoad (i : Nat) (s : State) : Option Byte :=
  if i < s.cfg.maxFrameLen then some (Memory.read s.payload i) else none

/-- `payload[i] <- b` (R61); no state at an index that does not exist. -/
def payloadStore (i : Nat) (b : Byte) (s : State) : Option State :=
  if i < s.cfg.maxFrameLen then some { s with payload := Memory.write s.payload i b } else none

/-- The response to a framing error, shared by the sync mismatch and the length out of range (R182, R183, R193): only
`state` changes, nothing is saved. The spec describes no other exception entry and no return (R194). -/
def abandonFrame (s : State) : State := { s with state := .awaitControl }

/-- `emit v` (00_scope.md R10): the byte goes to the peripheral. -/
def emit (b : Byte) (s : State) : State := { s with emitted := s.emitted ++ [b] }

/-- The state right after a reset (10_state.md R47) of an instance with configuration `c`, whose buffer holds
`contents` from index 0 on; a list that is too long is cut, one that is too short leaves the rest unlisted (log
entry 13). -/
def State.resetWith (c : Cfg) (contents : List Byte) : State :=
  { State.reset with cfg := c, payload := Memory.writeList [] 0 (contents.take c.maxFrameLen) }

/-- The reset event (70_reset_and_hazards.md R210): every element goes to its value of R47, the configuration stays,
the rest of the schedule is still to come. DEDUCED (log entry 7): the main context starts anew as well. -/
def resetInstance (contents : List Byte) (s : State) : State :=
  { State.resetWith s.cfg contents with events := s.events }

end Sys2Proof.Machine
end

