-- ==== Sys2Proof/Machine/DataAccess.lean ====
section
/-! DEFINITION. The data frames RDATA and WDATA and the DATA_ACCESS control byte without a committed length
(40_frame_decoder.md R114, R115, R121, R122, R127). -/

namespace Sys2Proof.Machine

/-- The control byte of a read data frame once `length` has a value (R111, R114). -/
def startRead (s : State) : State :=
  { s with rdCursor := 0, txCursor := 0, txMode := .data, queued := .transferRead, state := .awaitSync }

/-- The control byte of a write data frame once `length` has a value (R111, R115). -/
def startWrite (s : State) : State :=
  { s with wrCursor := 0, queued := .transferWrite, state := .awaitSync }

/-- TRANSFER_READ (R122): count the byte; the last one idles the sequencer and ends the frame. -/
def countRead (s : State) : Result :=
  match s.length with
  | none => .fault .lengthHasNoValue
  | some len =>
    if nextCursor s.rdCursor = len then
      .next { s with rdCursor := nextCursor s.rdCursor, txMode := .idle, state := .awaitControl }
    else .next { s with rdCursor := nextCursor s.rdCursor }

/-- What TRANSFER_WRITE does after its store (R121): advance the cursor; the last byte raises `writeDataReq` and ends
the frame. -/
def countWrite (len : Word16) (s : State) : State :=
  if nextCursor s.wrCursor = len then
    { s with wrCursor := nextCursor s.wrCursor, writeDataReq := true, state := .awaitControl }
  else { s with wrCursor := nextCursor s.wrCursor }

/-- TRANSFER_WRITE (R121): store the byte at the cursor and count it. -/
def storeWrite (b : Byte) (s : State) : Result :=
  match s.length with
  | none => .fault .lengthHasNoValue
  | some len =>
    match payloadStore s.wrCursor.toNat b s with
    | none => .fault (.payloadIndexOutOfRange s.wrCursor.toNat)
    | some t => .next (countWrite len t)

/-- The row RDATA. -/
def execRdata (byte : DataByte) (s : State) : Result :=
  match byte with
  | .ctrl _ =>
    match s.length with
    | none => .fault .dataAccessBeforeInit
    | some _ => .next (startRead s)
  | .data _ => countRead s

/-- The row WDATA. -/
def execWdata (byte : DataByte) (s : State) : Result :=
  match byte with
  | .ctrl _ =>
    match s.length with
    | none => .fault .dataAccessBeforeInit
    | some _ => .next (startWrite s)
  | .data b => storeWrite b s

/-- The row DATA_ACCESS__no_length (R127): the spec gives it no meaning but the model-only fault. -/
def execDataAccessNoLength (_unused : Field2) (_s : State) : Result := .fault .dataAccessBeforeInit

end Sys2Proof.Machine
end

