-- ==== Sys2Proof/Machine/Framing.lean ====
section
/-! DEFINITION. The bytes that are no opcode: the ignored byte (40_frame_decoder.md R111) and the sync byte (R117). -/

/-- The decoder state that `AWAIT_SYNC` goes to when the sync byte matches (R117). -/
def Sys2Proof.Queued.target : Queued → DecState
  | .awaitLenLow => .awaitLenLow
  | .transferRead => .transferRead
  | .transferWrite => .transferWrite
  | .awaitStatusSent => .awaitStatusSent

namespace Sys2Proof.Machine

/-- A matching sync byte (R117): capture the nibble, go to the queued state. -/
def acceptSync (low : Nibble) (s : State) : State := { s with lenHi := low, state := s.queued.target }

/-- The row ignored_byte (R111, R181): no state changes at all. -/
def execIgnoredByte (_high _low : Nibble) (s : State) : Result := .next s

/-- The row sync_byte (R117, R182). -/
def execSyncByte (pattern low : Nibble) (s : State) : Result :=
  if pattern = s.cfg.sync2 then .next (acceptSync low s) else .next (abandonFrame s)

end Sys2Proof.Machine
end

