-- ==== Sys2Proof/Machine/Init.lean ====
section
/-! DEFINITION. The INIT frames WINIT and RINIT (40_frame_decoder.md R112, R113) and the bytes that follow their sync
byte (R118, R119, R120). -/

namespace Sys2Proof.Machine

/-- The INIT control byte: latch `direction`, queue length acquisition (R111, R112, R113). -/
def startInit (direction : Bool) (s : State) : State :=
  { s with direction := direction, queued := .awaitLenLow, state := .awaitSync }

/-- AWAIT_LEN_LOW (R118): commit a valid candidate, else abandon the frame. -/
def acquireLength (b : Byte) (s : State) : State :=
  if lengthIsValid s.cfg (lengthCandidate s.lenHi b) then
    { s with length := some (lengthCandidate s.lenHi b), state := .awaitAddrHi }
  else abandonFrame s

/-- AWAIT_ADDR_HI (R119). -/
def acquireAddrHi (b : Byte) (s : State) : State := { s with addrHi := b, state := .awaitAddrLo }

/-- AWAIT_ADDR_LO (R120): commit the address; a read raises its request. -/
def acquireAddrLo (b : Byte) (s : State) : State :=
  { s with
    address := some (addressFrom s.addrHi b)
    readDataReq := s.readDataReq || s.direction
    state := .awaitControl }

/-- The row WINIT. -/
def execWinit (byte : InitByte) (s : State) : Result :=
  match byte with
  | .ctrl _ => .next (startInit false s)
  | .lenLow b => .next (acquireLength b s)
  | .addrHi b => .next (acquireAddrHi b s)
  | .addrLo b => .next (acquireAddrLo b s)

/-- The row RINIT. -/
def execRinit (byte : InitByte) (s : State) : Result :=
  match byte with
  | .ctrl _ => .next (startInit true s)
  | .lenLow b => .next (acquireLength b s)
  | .addrHi b => .next (acquireAddrHi b s)
  | .addrLo b => .next (acquireAddrLo b s)

end Sys2Proof.Machine
end

