-- ==== Sys2Proof/Machine/Flags.lean ====
section
/-! DEFINITION. The flag computations: the status-byte multiplexer with its read-and-clear (41_status_mux.md R150 to
R153) and the capture of the peripheral's error indications (60_exceptions.md R184, R185). -/

namespace Sys2Proof.Machine

/-- One flag's contribution to the status byte. -/
def flagBit (flag : Bool) (mask : Byte) : Byte := if flag then mask else 0

/-- `StatusMux()` (R150); bits 7 and 6 are 0 (R152). -/
def statusMux (s : State) : Byte :=
  flagBit s.readDataReady 0x01 ||| flagBit s.writeDataComplete 0x02 ||| flagBit s.rxOverRunError 0x04 |||
    flagBit s.txUnderRunError 0x08 ||| flagBit s.writeRegError 0x10 ||| flagBit s.readRegError 0x20

/-- All six status flags written false (R151); the request flags are not status flags. -/
def clearStatusFlags (s : State) : State :=
  { s with
    readDataReady := false, writeDataComplete := false, rxOverRunError := false
    txUnderRunError := false, writeRegError := false, readRegError := false }

/-- Step 1 of an invocation (60_exceptions.md R191): an indicated error sets its flag, else the flag stays (R184,
R185). -/
def captureErrors (ovr udr : Bool) (s : State) : State :=
  { s with
    rxOverRunError := s.rxOverRunError || ovr
    txUnderRunError := s.txUnderRunError || udr }

end Sys2Proof.Machine
end

