-- ==== Sys2Proof/Machine/Status.lean ====
section
/-! DEFINITION. The status frame (40_frame_decoder.md R116, R123; 41_status_mux.md R150, R151). -/

namespace Sys2Proof.Machine

/-- The STATUS_READ control byte (R111, R116): compute the status byte, clear its flags in the same step, arm the
sequencer. -/
def startStatus (s : State) : State :=
  { clearStatusFlags s with
    statusByte := statusMux s, txMode := .status, queued := .awaitStatusSent, state := .awaitSync }

/-- AWAIT_STATUS_SENT (R123). -/
def endStatus (s : State) : State := { s with txMode := .idle, state := .awaitControl }

/-- The row STATUS. -/
def execStatus (byte : PollByte) (s : State) : Result :=
  match byte with
  | .ctrl _ => .next (startStatus s)
  | .dontCare _ => .next (endStatus s)

end Sys2Proof.Machine
end

