-- ==== Sys2Proof/Machine/Dispatch.lean ====
section
/-! DEFINITION. The meaning of each row of spec/opcode_table.json: the rule `RX` selects (40_frame_decoder.md R110). -/

namespace Sys2Proof.Machine

def exec (i : Instr) (s : State) : Host.Outcome State Fault Refusal :=
  match i with
  | .winit byte => Sys2Proof.Machine.execWinit byte s
  | .rinit byte => Sys2Proof.Machine.execRinit byte s
  | .rdata byte => Sys2Proof.Machine.execRdata byte s
  | .wdata byte => Sys2Proof.Machine.execWdata byte s
  | .dataAccessNoLength unused => Sys2Proof.Machine.execDataAccessNoLength unused s
  | .status byte => Sys2Proof.Machine.execStatus byte s
  | .ignoredByte high low => Sys2Proof.Machine.execIgnoredByte high low s
  | .syncByte pattern low => Sys2Proof.Machine.execSyncByte pattern low s

end Sys2Proof.Machine
end

