-- ==== Sys2Proof/Machine/Dispatcher.lean ====
section
/-! DEFINITION. The deferred request dispatcher: one indivisible access at a time in the program order of
43_dispatcher.md R175, and one whole call as a single operation (R170 to R173), which a run of accesses that no
invocation interrupts amounts to. -/

namespace Sys2Proof.Machine

/-- The write of `readRegError` and its neighbours come after the last store (R171, R175). -/
def afterStores (index : Nat) (rest : List Byte) (failed : Bool) : DispPc :=
  match rest with
  | [] => .writeReadError failed
  | _ :: _ => .storePayload index rest failed

/-- `RegWrite` is called once `len` bytes have been loaded (R172, R175). -/
def afterLoads (len addr : Word16) (got : List Byte) : DispPc :=
  if got.length < len.toNat then .loadPayload len addr got else .regWrite len addr got

/-- A read of `length` by the dispatcher (R175). -/
def withLength (s : State) (f : Word16 → Result) : Result :=
  match s.length with
  | none => .fault .lengthHasNoValue
  | some len => f len

/-- A read of `address` by the dispatcher (R175). -/
def withAddress (s : State) (f : Word16 → Result) : Result :=
  match s.address with
  | none => .fault .addressHasNoValue
  | some addr => f addr

/-- The collaborator's read (R174): the call is seen outside; its answer must be `len` bytes. -/
def callRegRead (len addr : Word16) (answer : RegAnswer) (s : State) : Result :=
  if answer.bytes.length = len.toNat then
    .next { s with
      regCalls := s.regCalls ++ [.read len addr], disp := afterStores 0 answer.bytes answer.failed }
  else .refused (.answerNotOfLength len answer.bytes.length)

/-- One store of the read branch (R171). -/
def dispatcherStore (index : Nat) (b : Byte) (rest : List Byte) (failed : Bool) (s : State) : Result :=
  match payloadStore index b s with
  | none => .fault (.payloadIndexOutOfRange index)
  | some t => .next { t with disp := afterStores (index + 1) rest failed }

/-- One load of the write branch (R172). -/
def dispatcherLoad (len addr : Word16) (got : List Byte) (s : State) : Result :=
  match payloadLoad got.length s with
  | none => .fault (.payloadIndexOutOfRange got.length)
  | some b => .next { s with disp := afterLoads len addr (got ++ [b]) }

/-- The main context's next access (R175). `answer` is the collaborator's, used if the access is a call. -/
def dispatcherAccess (answer : RegAnswer) (s : State) : Result :=
  match s.disp with
  | .idle => .next { s with disp := if s.readDataReq then .readLength else .testWriteReq }
  | .readLength => withLength s fun len => .next { s with disp := .readAddress len }
  | .readAddress len => withAddress s fun addr => .next { s with disp := .regRead len addr }
  | .regRead len addr => callRegRead len addr answer s
  | .storePayload _ [] failed => .next { s with disp := .writeReadError failed }
  | .storePayload index (b :: rest) failed => dispatcherStore index b rest failed s
  | .writeReadError failed => .next { s with readRegError := failed, disp := .clearReadReq }
  | .clearReadReq => .next { s with readDataReq := false, disp := .setReadReady }
  | .setReadReady => .next { s with readDataReady := true, disp := .testWriteReq }
  | .testWriteReq => .next { s with disp := if s.writeDataReq then .writeLength else .idle }
  | .writeLength => withLength s fun len => .next { s with disp := .writeAddress len }
  | .writeAddress len => withAddress s fun addr => .next { s with disp := afterLoads len addr [] }
  | .loadPayload len addr got => dispatcherLoad len addr got s
  | .regWrite len addr bytes =>
    .next { s with
      regCalls := s.regCalls ++ [.write len addr bytes], disp := .writeWriteError answer.failed }
  | .writeWriteError failed => .next { s with writeRegError := failed, disp := .clearWriteReq }
  | .clearWriteReq => .next { s with writeDataReq := false, disp := .setWriteComplete }
  | .setWriteComplete => .next { s with writeDataComplete := true, disp := .idle }

/-- The read branch as one operation (R171). -/
def readBranch (answer : RegAnswer) (s : State) : Result :=
  if s.readDataReq then
    withLength s fun len => withAddress s fun addr =>
      if answer.bytes.length = len.toNat then
        .next { s with
          payload := Memory.writeList s.payload 0 answer.bytes
          readRegError := answer.failed, readDataReq := false, readDataReady := true
          regCalls := s.regCalls ++ [.read len addr] }
      else .refused (.answerNotOfLength len answer.bytes.length)
  else .next s

/-- The write branch as one operation (R172). -/
def writeBranch (answer : RegAnswer) (s : State) : Result :=
  if s.writeDataReq then
    withLength s fun len => withAddress s fun addr =>
      .next { s with
        writeRegError := answer.failed, writeDataReq := false, writeDataComplete := true
        regCalls := s.regCalls ++ [.write len addr (Memory.readList s.payload 0 len.toNat)] }
  else .next s

/-- `DISPATCH()` as one operation, the read branch first (R170, R173). -/
def dispatchCall (readAnswer writeAnswer : RegAnswer) (s : State) : Result :=
  andThen (readBranch readAnswer s) (writeBranch writeAnswer)

end Sys2Proof.Machine
end

