-- ==== Sys2Proof/Machine/Sequencer.lean ====
section
/-! DEFINITION. The transmit sequencer (42_transmit_sequencer.md R160 to R166). -/

namespace Sys2Proof.Machine

/-- `FILL`, the idle filler byte (00_scope.md R7). -/
def fillByte : Byte := 0x00

/-- DATA mode (R162): emit the byte at the cursor, advance the cursor, wrapping at the buffer's capacity. -/
def transmitData (s : State) : Result :=
  match payloadLoad s.txCursor.toNat s with
  | none => .fault (.payloadIndexOutOfRange s.txCursor.toNat)
  | some b => .next (emit b { s with txCursor := nextTxCursor s.cfg s.txCursor })

/-- `TX()` (R160): exactly one byte, by the transmit mode (R161, R162, R163). -/
def transmit (s : State) : Result :=
  match s.txMode with
  | .status => .next (emit s.statusByte { s with txMode := .idle })
  | .data => transmitData s
  | .idle => .next (emit fillByte s)

end Sys2Proof.Machine
end

