-- ==== Sys2Proof/Machine/Invocation.lean ====
section
/-! DEFINITION. One invocation of the block (60_exceptions.md R191), and what each event of the environment does. -/

namespace Sys2Proof.Machine

/-- What selects the format of the next received byte (30_encoding.md R97). -/
def decodeMode (s : State) : DecodeMode :=
  { state := s.state, direction := s.direction, hasLength := s.length.isSome }

/-- `RX(b)` (40_frame_decoder.md R110): the received byte is decoded by the state and executed. -/
def receive (b : Byte) (s : State) : Result := exec (decodeByte s.cfg (decodeMode s) b) s

/-- Step 2 of an invocation (R191): `RX` if a byte is present. -/
def receiveIfPresent (rx : Option Byte) (s : State) : Result :=
  match rx with
  | some b => receive b s
  | none => .next s

/-- Step 3 of an invocation (R191): `TX` if the peripheral asks for a byte. -/
def transmitIfReady (txReady : Bool) (s : State) : Result :=
  if txReady then transmit s else .next s

/-- One invocation (R191): error capture, then `RX`, then `TX`, each on the state the one before left. -/
def invoke (snap : Snapshot) (s : State) : Result :=
  andThen (receiveIfPresent snap.rx (captureErrors snap.ovr snap.udr s)) (transmitIfReady snap.txReady)

/-- What an event does (00_scope.md R12, R13; 43_dispatcher.md R175; 70_reset_and_hazards.md R210). -/
def runEvent (e : Event) (s : State) : Result :=
  match e with
  | .invoke snap => invoke snap s
  | .main answer => dispatcherAccess answer s
  | .reset contents => .next (resetInstance contents s)

/-- The events of a list in order, until one stops. -/
def runEvents : List Event → State → Result
  | [], s => .next s
  | e :: rest, s => andThen (runEvent e s) (runEvents rest)

/-- The next event of the schedule; with none pending the machine holds its state (60_exceptions.md R203). -/
def runNextEvent (s : State) : Result :=
  match s.events with
  | [] => .next s
  | e :: rest => runEvent e { s with events := rest }

/-- The events that deliver a list of received bytes, one invocation each, with nothing else indicated. -/
def receiveEvents (bytes : List Byte) : List Event :=
  bytes.map fun b => .invoke { ovr := false, udr := false, rx := some b, txReady := false }

/-- The state with the bytes of a table word scheduled next and the decoder in the state the table reads the row in. -/
def scheduleWord (s : State) (nbits w : Nat) : State :=
  { s with
    state := tableState s.cfg (BitVec.ofNat 8 w)
    events := receiveEvents (wordBytes nbits w) ++ s.events }

end Sys2Proof.Machine
end

