-- ==== Sys2Proof/Machine/Step.lean ====
section
/-! DEFINITION. One step of the machine: the next event of the environment's schedule; and where the host places an
instruction. -/

namespace Sys2Proof.Machine

/-- One step (00_scope.md R12, R13). -/
def step (s : State) : Host.Outcome State Fault Refusal := runNextEvent s

/-- The state in which the next step receives the bytes of a table word (log entry 6). -/
def State.withFetchWord (s : State) (nbits w : Nat) : State := scheduleWord s nbits w

end Sys2Proof.Machine
end

