-- ==== Sys2Proof/Machine/Collaborator.lean ====
section
/-! DEFINITION. The register-access capability as a parameter over a store of its own (43_dispatcher.md R174), the
pass-through store the source tests with, and a whole dispatcher call served by a collaborator. -/

namespace Sys2Proof.Machine

/-- A collaborator over stores of type `σ` (R174): each operation answers and leaves a store. -/
structure Collaborator (σ : Type) where
  regRead : σ → Word16 → Word16 → RegAnswer × σ
  regWrite : σ → Word16 → Word16 → List Byte → Bool × σ

/-- The pass-through store (R174): `store[a + i] = bytes[i]`, never failing. DESIGN CHOICE (log entry 8): keys are
natural numbers, so an address past 0xFFFF is a key of its own, a case the spec leaves out. -/
def passThrough : Collaborator Memory where
  regRead store len addr :=
    ({ failed := false, bytes := Memory.readList store addr.toNat len.toNat }, store)
  regWrite store _ addr bytes := (false, Memory.writeList store addr.toNat bytes)

/-- The read branch served by a collaborator (R171). -/
def readBranchWith {σ : Type} (C : Collaborator σ) (store : σ) (s : State) : Result × σ :=
  match s.readDataReq, s.length, s.address with
  | true, some len, some addr =>
    (readBranch (C.regRead store len addr).1 s, (C.regRead store len addr).2)
  | _, _, _ => (readBranch { failed := false, bytes := [] } s, store)

/-- The write branch served by a collaborator (R172). -/
def writeBranchWith {σ : Type} (C : Collaborator σ) (store : σ) (s : State) : Result × σ :=
  match s.writeDataReq, s.length, s.address with
  | true, some len, some addr =>
    let served := C.regWrite store len addr (Memory.readList s.payload 0 len.toNat)
    (writeBranch { failed := served.1, bytes := [] } s, served.2)
  | _, _, _ => (writeBranch { failed := false, bytes := [] } s, store)

/-- `DISPATCH()` served by a collaborator (R170, R173). -/
def dispatchWith {σ : Type} (C : Collaborator σ) (store : σ) (s : State) : Result × σ :=
  match readBranchWith C store s with
  | (.next t, store') => writeBranchWith C store' t
  | (r, store') => (r, store')

end Sys2Proof.Machine
end

