-- ==== Sys2Proof/Machine/Wire.lean ====
section
/-! DEFINITION. The slot model: how the events of a bus slot reach the block and how emitted bytes reach the master
(42_transmit_sequencer.md R165, 20_memory.md R63). -/

namespace Sys2Proof.Machine

/-- `TXE_k`: the transmit-ready event alone. -/
def txEvent : Event := .invoke { ovr := false, udr := false, rx := none, txReady := true }

/-- `RXE_k`: the receive event alone, delivering the master's byte. -/
def rxEvent (m : Byte) : Event := .invoke { ovr := false, udr := false, rx := some m, txReady := false }

/-- The pair `(RXE_(k-1), TXE_k)` in one invocation. -/
def pairEvent (m : Byte) : Event := .invoke { ovr := false, udr := false, rx := some m, txReady := true }

/-- The events of a run of slots: in each, first the transmit-ready event, then the receive event. -/
def slotEvents : List Byte → List Event
  | [] => []
  | m :: rest => txEvent :: rxEvent m :: slotEvents rest

/-- The run of slots in which the master sends these bytes. -/
def runSlots (master : List Byte) (s : State) : Result := runEvents (slotEvents master) s

/-- What the master receives, slot by slot from reset: `S_0` is the peripheral's own and unspecified, an argument;
`S_(k+1) = T_k`. -/
def slaveBytes (s0 : Byte) (s : State) : List Byte := s0 :: s.emitted

end Sys2Proof.Machine
end

