-- ==== Sys2Proof/Machine/Transaction.lean ====
section
/-! DEFINITION. The pseudo-instructions of 30_encoding.md R96, run: the master's frames as bus slots, the dispatcher's
calls between them, and STATUS repeated until the returned byte has the awaited bit. -/

namespace Sys2Proof.Machine

/-- The slave's bytes at positions 1, 2, ... of a frame that took `before` to `after`: position `p` is on the wire one slot
after `TX` emitted it (42_transmit_sequencer.md R165). -/
def returnedBytes (before after : State) : List Byte := after.emitted.drop before.emitted.length

/-- The returned bytes that a master interprets (70_reset_and_hazards.md R222): positions 2 to `len + 1` of a read data
frame, position 2 of a status frame. -/
def frameData (f : Frame) (returned : List Byte) : List Byte :=
  match f with
  | .rdata len => (returned.drop 1).take len.toNat
  | .status => (returned.drop 1).take 1
  | .winit _ _ => []
  | .rinit _ _ => []
  | .wdata _ _ => []
  | .raw _ => []

/-- The byte a status frame returned has this bit set. -/
def statusBitSet (before after : State) (bit : Fin 8) : Bool :=
  (frameData .status (returnedBytes before after)).any fun b => b.getLsbD bit

/-- `DISPATCH`, this many times in a row. -/
def dispatchTimes {σ : Type} (C : Collaborator σ) : Nat → σ → State → Result × σ
  | 0, store, s => (.next s, store)
  | n + 1, store, s =>
    match dispatchWith C store s with
    | (.next t, store') => dispatchTimes C n store' t
    | (r, store') => (r, store')

/-- How a repetition of STATUS ends. -/
inductive PollEnd (σ : Type) where
  /-- A returned byte had the awaited bit; `failed` is its failure bit, `calls` what is left of the application's
  schedule. -/
  | answered (failed : Bool) (calls : List Nat) (s : State) (store : σ)
  /-- The schedule given ended before the bit came. -/
  | waiting (s : State) (store : σ)
  /-- A step of the machine answered a fault or a refusal. -/
  | stopped (r : Result)

/-- "repeat STATUS until the returned byte has bit `flag` set (DISPATCH must occur in between)" (R96). The application
calls the dispatcher at its discretion (93_implementation_defined.md U11): `calls` says how many calls come before each
poll, one entry a poll. -/
def pollUntil {σ : Type} (C : Collaborator σ) (flag fail : Fin 8) : List Nat → σ → State → PollEnd σ
  | [], store, s => .waiting s store
  | n :: calls, store, s =>
    match dispatchTimes C n store s with
    | (.next t, store') =>
      match runSlots (frameBytes t.cfg .status) t with
      | .next u =>
        if statusBitSet t u flag then .answered (statusBitSet t u fail) calls u store'
        else pollUntil C flag fail calls store' u
      | r => .stopped r
    | (r, _) => .stopped r

/-- How a script ends. -/
inductive ScriptEnd (σ : Type) where
  /-- It ran to its end, or to a poll that told failure; `data` are the returned bytes the master interprets. -/
  | ended (failed : Bool) (data : List Byte) (s : State) (store : σ)
  /-- The schedule given ended before an awaited bit came. -/
  | waiting (s : State) (store : σ)
  /-- A step of the machine answered a fault or a refusal. -/
  | stopped (r : Result)

/-- The end of a script whose first frame returned these bytes. -/
def ScriptEnd.prepend {σ : Type} (bytes : List Byte) : ScriptEnd σ → ScriptEnd σ
  | .ended failed data s store => .ended failed (bytes ++ data) s store
  | .waiting s store => .waiting s store
  | .stopped r => .stopped r

/-- A script run with a collaborator, under the application's schedule of dispatcher calls. DEDUCED (log entry 20): after a
poll that tells failure the master sends nothing more (95_test_vectors.md P10). -/
def runScript {σ : Type} (C : Collaborator σ) : List ScriptStep → List Nat → σ → State → ScriptEnd σ
  | [], _, store, s => .ended false [] s store
  | .frame f :: rest, calls, store, s =>
    match runSlots (frameBytes s.cfg f) s with
    | .next t => (runScript C rest calls store t).prepend (frameData f (returnedBytes s t))
    | r => .stopped r
  | .dispatch :: rest, calls, store, s =>
    match dispatchWith C store s with
    | (.next t, store') => runScript C rest calls store' t
    | (r, _) => .stopped r
  | .pollUntil flag fail :: rest, calls, store, s =>
    match pollUntil C flag fail calls store s with
    | .answered true _ t store' => .ended true [] t store'
    | .answered false calls' t store' => runScript C rest calls' store' t
    | .waiting t store' => .waiting t store'
    | .stopped r => .stopped r

/-- A pseudo-instruction run (R96): its expansion's script. -/
def runTransaction {σ : Type} (C : Collaborator σ) (x : Transaction) (calls : List Nat) (store : σ) (s : State) :
    ScriptEnd σ :=
  runScript C (transactionSteps x) calls store s

end Sys2Proof.Machine
end

