-- ==== Sys2Proof/Safety.lean ====
section
/-! DEFINITION. What holds in every reachable state (10_state.md R44, and what its induction needs), the `fault` marker
(R48) read from a step's answer, and runs that never stop. -/

namespace Sys2Proof.Machine

/-- The next state of an answer, if it is one. -/
def nextState? : Result → Option State
  | .next s => some s
  | .fault _ => none
  | .refused _ => none

/-- The `fault` marker of R48 after a step: which fault ended the run, if one did. -/
def faultMarker? : Result → Option Fault
  | .next _ => none
  | .fault e => some e
  | .refused _ => none

/-- A length the live register may hold (R44 (a)). -/
def legalLength (c : Cfg) (len : Word16) : Prop := 1 ≤ len.toNat ∧ len.toNat ≤ c.maxFrameLen

/-- A cursor below the live length (R44 (c), (d)). -/
def belowLength (cursor : Word16) (length : Option Word16) : Prop :=
  ∃ len, length = some len ∧ cursor.toNat < len.toNat

/-- The dispatcher's locals: lengths it read are legal, what it is about to read has a value, the bytes it has still
to move lie in the buffer. -/
def DispInv (s : State) : Prop :=
  match s.disp with
  | .readLength => s.length.isSome ∧ s.address.isSome
  | .writeLength => s.length.isSome ∧ s.address.isSome
  | .readAddress len => s.address.isSome ∧ legalLength s.cfg len
  | .writeAddress len => s.address.isSome ∧ legalLength s.cfg len
  | .regRead len _ => legalLength s.cfg len
  | .storePayload index rest _ => index + rest.length ≤ s.cfg.maxFrameLen
  | .loadPayload len _ got => got.length < len.toNat ∧ len.toNat ≤ s.cfg.maxFrameLen
  | _ => True

/-- The invariants of R44 and what keeps them inductive. -/
structure Inv (s : State) : Prop where
  /-- The configuration meets 00_scope.md R6. -/
  cfgValid : s.cfg.Valid
  /-- R44 (a). -/
  lengthLegal : ∀ len, s.length = some len → legalLength s.cfg len
  /-- In address acquisition a length has been committed. -/
  lengthCommitted : s.state = .awaitAddrHi ∨ s.state = .awaitAddrLo → s.length.isSome
  /-- R44 (b), and in every other state but the two of address acquisition. -/
  addressCommitted :
    s.length.isSome → s.state ≠ .awaitAddrHi → s.state ≠ .awaitAddrLo → s.address.isSome
  /-- R44 (c). -/
  writeInRange : s.state = .transferWrite → belowLength s.wrCursor s.length
  /-- R44 (d). -/
  readInRange : s.state = .transferRead → belowLength s.rdCursor s.length
  /-- What the sync byte of a write data frame needs for (c). -/
  writeQueued : s.state = .awaitSync → s.queued = .transferWrite → belowLength s.wrCursor s.length
  /-- What the sync byte of a read data frame needs for (d). -/
  readQueued : s.state = .awaitSync → s.queued = .transferRead → belowLength s.rdCursor s.length
  /-- R44 (e). -/
  txInRange : s.txCursor.toNat < s.cfg.maxFrameLen
  /-- R44 (g). -/
  requestsServable :
    s.readDataReq = true ∨ s.writeDataReq = true → s.length.isSome ∧ s.address.isSome
  /-- R44 (h). -/
  statusHighBits : s.statusByte.extractLsb' 6 2 = 0
  /-- The payload buffer is in canonical form and lies in its space (20_memory.md R61). -/
  payloadWf : Memory.wf s.cfg.maxFrameLen s.payload = true
  /-- The dispatcher's locals. -/
  dispInv : DispInv s

/-- The run of `n` steps from `s` never stops. -/
def RunsOn (n : Nat) (s : State) : Prop :=
  match n with
  | 0 => True
  | n + 1 => ∃ t, step s = .next t ∧ RunsOn n t

end Sys2Proof.Machine
end

