-- ==== Sys2Proof/Certificates/Slice0/Obligations.lean ====
section
/-! DEFINITION. The statements for the provers, from the numbered rules of spec/. Each names the rule or the section it
rests on; where it rests on a decision of 92_eei_decisions.md it says so. A statement about an instruction is about
`exec` under hypotheses on the state and the operands alone; the statements about frames run the bytes one invocation
each. -/

open Sys2Proof Sys2Proof.Machine

/-! ## Encoding -/

/-- 30_encoding.md R81 to R85, R97, with 92_eei_decisions.md D5 (bits 3:2 of a control byte are free): decoding the
encoding of a well-formed instruction, in a mode in which the table reads that row, gives the instruction back with
every operand, and leaves the bytes that follow. -/
def Obligations.DecodeOfEncode : Prop :=
  ∀ (c : Cfg) (m : DecodeMode) (i : Instr) (rest : List Byte),
    c.Valid → i.wellFormed c = true → m.admits i = true → decode c m (encode c i ++ rest) = .ok (i, rest)

/-- 30_encoding.md R89, R91, R93, R97, with 92_eei_decisions.md D5: every byte in every mode is read as a well-formed
instruction that the table reads in that mode, and that instruction's encoding is the byte: no bit is dropped. -/
def Obligations.EncodeOfDecode : Prop :=
  ∀ (c : Cfg) (m : DecodeMode) (b : Byte),
    c.Valid →
      encodeByte c (decodeByte c m b) = b ∧ (decodeByte c m b).wellFormed c = true ∧
        m.admits (decodeByte c m b) = true

/-- Words written out under `CFG_REF`: V-C1 (A0), V-C7 (AC), V-C2 (A1), V-C3, V-C4 and V-C9 (A2), V-C8 (AF), V-C6 (3C)
of 95_test_vectors.md section 2.1, V-Y2 (5F) of 2.2, V-L7 (3C) of 2.3, V-A5 (A3) of 2.4, V-W4 (A3) and V-R3 (A0) of
2.5, and the don't-care FF of program P5 (e). That a length or address byte is a form of the row WINIT or RINIT as
`direction` stands is the model's grouping of bytes into rows (log entry 9). -/
def Obligations.ReferenceWordsDecode : Prop :=
  let control (direction hasLength : Bool) : DecodeMode := ⟨.awaitControl, direction, hasLength⟩
  decodeByte Cfg.ref (control true false) 0xA0 = .winit (.ctrl 0) ∧
  decodeByte Cfg.ref (control true false) 0xAC = .winit (.ctrl 3) ∧
  decodeByte Cfg.ref (control false false) 0xA1 = .rinit (.ctrl 0) ∧
  decodeByte Cfg.ref (control true true) 0xA2 = .rdata (.ctrl 0) ∧
  decodeByte Cfg.ref (control false true) 0xA2 = .wdata (.ctrl 0) ∧
  decodeByte Cfg.ref (control true false) 0xA2 = .dataAccessNoLength 0 ∧
  decodeByte Cfg.ref (control true true) 0xAF = .status (.ctrl 3) ∧
  decodeByte Cfg.ref (control true true) 0x3C = .ignoredByte 0x3 0xC ∧
  decodeByte Cfg.ref ⟨.awaitSync, false, false⟩ 0x5F = .syncByte 0x5 0xF ∧
  decodeByte Cfg.ref ⟨.awaitLenLow, false, false⟩ 0x3C = .winit (.lenLow 0x3C) ∧
  decodeByte Cfg.ref ⟨.awaitAddrHi, true, true⟩ 0xA3 = .rinit (.addrHi 0xA3) ∧
  decodeByte Cfg.ref ⟨.transferWrite, false, true⟩ 0xA3 = .wdata (.data 0xA3) ∧
  decodeByte Cfg.ref ⟨.transferRead, true, true⟩ 0xA0 = .rdata (.data 0xA0) ∧
  decodeByte Cfg.ref ⟨.awaitStatusSent, true, true⟩ 0xFF = .status (.dontCare 0xFF)

/-- The control byte of an opcode code as 30_encoding.md R89 writes it. -/
def Sys2Proof.Claims.controlWord (c : Cfg) (code : Field2) : Byte :=
  (c.sync1.setWidth 8 <<< 4) ||| code.setWidth 8

/-- 30_encoding.md R89, last sentence, R97 (b), R91, with 92_eei_decisions.md D5 (bits 3:2 are not examined): in
`AWAIT_CONTROL` a byte selects an opcode exactly when its bits outside 3:2 are that opcode's control byte; DATA_ACCESS
is the row that `direction` and the committed length select; a byte is ignored exactly when its high nibble is not
`SYNC1_NIBBLE`. -/
def Obligations.ControlByteSelectsOpcode : Prop :=
  ∀ (c : Cfg) (m : DecodeMode) (b : Byte),
    c.Valid → m.state = .awaitControl →
      ((∃ x, decodeByte c m b = .winit (.ctrl x)) ↔ b &&& 0xF3 = Claims.controlWord c c.opcWriteInit) ∧
      ((∃ x, decodeByte c m b = .rinit (.ctrl x)) ↔ b &&& 0xF3 = Claims.controlWord c c.opcReadInit) ∧
      ((∃ x, decodeByte c m b = .rdata (.ctrl x)) ↔
        b &&& 0xF3 = Claims.controlWord c c.opcDataAccess ∧ m.hasLength = true ∧ m.direction = true) ∧
      ((∃ x, decodeByte c m b = .wdata (.ctrl x)) ↔
        b &&& 0xF3 = Claims.controlWord c c.opcDataAccess ∧ m.hasLength = true ∧ m.direction = false) ∧
      ((∃ x, decodeByte c m b = .dataAccessNoLength x) ↔
        b &&& 0xF3 = Claims.controlWord c c.opcDataAccess ∧ m.hasLength = false) ∧
      ((∃ x, decodeByte c m b = .status (.ctrl x)) ↔ b &&& 0xF3 = Claims.controlWord c c.opcStatusRead) ∧
      ((∃ h l, decodeByte c m b = .ignoredByte h l) ↔ b.extractLsb' 4 4 ≠ c.sync1)

/-- 40_frame_decoder.md R110, 20_memory.md R76: outside `AWAIT_CONTROL` the state selects the rule, whatever the
byte's value. That a byte of an INIT frame after its sync byte is a form of the row WINIT or RINIT as `direction`
stands (10_state.md R23) is the model's grouping of bytes into rows (log entry 9): the rule is the same for both. -/
def Obligations.FollowingBytesDecodeByState : Prop :=
  ∀ (s : State) (b : Byte),
    (s.state = .awaitSync →
      decodeByte s.cfg (decodeMode s) b = .syncByte (b.extractLsb' 4 4) (b.extractLsb' 0 4)) ∧
    (s.state = .awaitLenLow →
      decodeByte s.cfg (decodeMode s) b = if s.direction then .rinit (.lenLow b) else .winit (.lenLow b)) ∧
    (s.state = .awaitAddrHi →
      decodeByte s.cfg (decodeMode s) b = if s.direction then .rinit (.addrHi b) else .winit (.addrHi b)) ∧
    (s.state = .awaitAddrLo →
      decodeByte s.cfg (decodeMode s) b = if s.direction then .rinit (.addrLo b) else .winit (.addrLo b)) ∧
    (s.state = .transferWrite → decodeByte s.cfg (decodeMode s) b = .wdata (.data b)) ∧
    (s.state = .transferRead → decodeByte s.cfg (decodeMode s) b = .rdata (.data b)) ∧
    (s.state = .awaitStatusSent → decodeByte s.cfg (decodeMode s) b = .status (.dontCare b))

/-! ## What each instruction does -/

/-- 40_frame_decoder.md R112, R113, each as part of R111: a WRITE_INIT or READ_INIT control byte latches `direction`,
queues length acquisition, goes to `AWAIT_SYNC`, and changes nothing else, no request and no mode being tested. Which
bytes are read so is `ControlByteSelectsOpcode`. Completes: `winit`, `rinit` at their control byte. -/
def Obligations.InitControlByteStartsFrame : Prop :=
  ∀ (s : State) (x : Field2),
    exec (.winit (.ctrl x)) s =
        .next { s with direction := false, queued := .awaitLenLow, state := .awaitSync } ∧
      exec (.rinit (.ctrl x)) s =
        .next { s with direction := true, queued := .awaitLenLow, state := .awaitSync }

/-- 40_frame_decoder.md section 3, AWAIT_LEN_LOW, and 92_eei_decisions.md D10 (the live register changes only by a
valid commit): the length byte commits `256 * lenHi + b` if it is from 1 to `MAX_FRAME_LEN`, else abandons the frame
with nothing but `state` changed. Completes: `winit`, `rinit` at `lenLow`. -/
def Obligations.LengthByteCommitsOrAbandons : Prop :=
  ∀ (s : State) (b : Byte) (i : Instr),
    i = .winit (.lenLow b) ∨ i = .rinit (.lenLow b) →
      exec i s = .next
        (if 0 < 256 * s.lenHi.toNat + b.toNat ∧ 256 * s.lenHi.toNat + b.toNat ≤ s.cfg.maxFrameLen then
          { s with length := some (BitVec.ofNat 16 (256 * s.lenHi.toNat + b.toNat)), state := .awaitAddrHi }
        else { s with state := .awaitControl }) ∧
      (s.state = .awaitLenLow → receive b s = exec i s)

/-- 40_frame_decoder.md section 3, AWAIT_ADDR_HI, and 92_eei_decisions.md D11 (`address` is not changed yet).
Completes: `winit`, `rinit` at `addrHi`. -/
def Obligations.AddressHighByteIsHeld : Prop :=
  ∀ (s : State) (b : Byte) (i : Instr),
    i = .winit (.addrHi b) ∨ i = .rinit (.addrHi b) →
      exec i s = .next { s with addrHi := b, state := .awaitAddrLo } ∧
      (s.state = .awaitAddrHi → receive b s = .next { s with addrHi := b, state := .awaitAddrLo })

/-- 40_frame_decoder.md R120, 30_encoding.md R88: the address-low byte commits `256 * addrHi + b`, raises
`readDataReq` when `direction` is true and leaves it as it was when false, and returns to `AWAIT_CONTROL`. Completes:
`winit`, `rinit` at `addrLo`. -/
def Obligations.AddressLowByteCommits : Prop :=
  ∀ (s : State) (b : Byte) (i : Instr),
    i = .winit (.addrLo b) ∨ i = .rinit (.addrLo b) →
      exec i s = .next
        { s with
          address := some (BitVec.ofNat 16 (256 * s.addrHi.toNat + b.toNat))
          readDataReq := if s.direction then true else s.readDataReq
          state := .awaitControl } ∧
      (s.state = .awaitAddrLo → receive b s = exec i s)

/-- 40_frame_decoder.md section 2, DATA_ACCESS when `direction` is true, and 92_eei_decisions.md D5 (bits 3:2 are not
examined), D8, D9 (DATA mode at the control byte, both cursors reset). Completes: `rdata` at its control byte, when
`length` has a value. -/
def Obligations.ReadDataControlArmsSequencer : Prop :=
  ∀ (s : State) (x : Field2) (len : Word16),
    s.cfg.Valid → s.state = .awaitControl → s.direction = true → s.length = some len →
      decodeByte s.cfg (decodeMode s) (controlByte s.cfg s.cfg.opcDataAccess x) = .rdata (.ctrl x) ∧
      exec (.rdata (.ctrl x)) s = .next
        { s with rdCursor := 0, txCursor := 0, txMode := .data, queued := .transferRead, state := .awaitSync }

/-- 40_frame_decoder.md section 2, DATA_ACCESS when `direction` is false, with 92_eei_decisions.md D5 (bits 3:2 are
not examined) and D16 (the fault): the control byte resets the write cursor, queues `TRANSFER_WRITE`, goes to
`AWAIT_SYNC` and changes nothing else; without a committed length it faults. Completes: `wdata` at its control byte,
when `length` has a value. -/
def Obligations.WriteDataControlResetsCursor : Prop :=
  ∀ (s : State) (x : Field2),
    s.cfg.Valid → s.state = .awaitControl → s.direction = false →
      (∀ len, s.length = some len →
        decodeByte s.cfg (decodeMode s) (controlByte s.cfg s.cfg.opcDataAccess x) = .wdata (.ctrl x) ∧
        exec (.wdata (.ctrl x)) s = .next
          { s with wrCursor := 0, queued := .transferWrite, state := .awaitSync }) ∧
      (s.length = none →
        exec (.wdata (.ctrl x)) s = .fault .dataAccessBeforeInit ∧
        receive (controlByte s.cfg s.cfg.opcDataAccess x) s = .fault .dataAccessBeforeInit)

/-- 40_frame_decoder.md section 2, DATA_ACCESS before any length, 60_exceptions.md section 3, and 92_eei_decisions.md
D5, D16: the control byte is read as the row DATA_ACCESS__no_length, which faults in every state; the whole step
faults, so no write of it takes effect, whatever else the snapshot carries. -/
def Obligations.DataAccessWithoutLengthFaults : Prop :=
  (∀ (s : State) (x : Field2), exec (.dataAccessNoLength x) s = .fault .dataAccessBeforeInit) ∧
  ∀ (s : State) (x : Field2) (snap : Snapshot) (rest : List Event),
    s.cfg.Valid → s.state = .awaitControl → s.length = none → s.events = .invoke snap :: rest →
      snap.rx = some (controlByte s.cfg s.cfg.opcDataAccess x) →
      decodeByte s.cfg (decodeMode s) (controlByte s.cfg s.cfg.opcDataAccess x) = .dataAccessNoLength x ∧
      step s = .fault .dataAccessBeforeInit

/-- 40_frame_decoder.md R116, as part of R111, and 41_status_mux.md R151: the STATUS_READ control byte stores the
multiplexer's value of the flags as they were, writes all six false, arms the sequencer whatever its mode, and leaves
the request flags alone. Which bytes are read so is `ControlByteSelectsOpcode`; that an abandoned status frame has
cleared them all the same is `AbandonedFrameKeepsControlEffects`. Completes: `status` at its control byte. -/
def Obligations.StatusControlReadsAndClears : Prop :=
  ∀ (s : State) (x : Field2),
    exec (.status (.ctrl x)) s = .next
      { s with
        statusByte := statusMux s
        readDataReady := false, writeDataComplete := false, rxOverRunError := false
        txUnderRunError := false, writeRegError := false, readRegError := false
        txMode := .status, queued := .awaitStatusSent, state := .awaitSync }

/-- 41_status_mux.md R150: bit by bit, no bit derived from another and none else set; the value is what the
STATUS_READ control byte stores in `statusByte`, and computing it writes no flag of its own. -/
def Obligations.StatusByteBits : Prop :=
  ∀ s : State,
    (statusMux s).toNat =
      s.readDataReady.toNat + 2 * s.writeDataComplete.toNat + 4 * s.rxOverRunError.toNat +
        8 * s.txUnderRunError.toNat + 16 * s.writeRegError.toNat + 32 * s.readRegError.toNat ∧
    ∀ x, ∃ t, exec (.status (.ctrl x)) s = .next t ∧ t.statusByte = statusMux s

/-- 40_frame_decoder.md R121: a data byte, whatever its value, is stored at the write cursor, the cursor advances, and
reaching `length` raises `writeDataReq` and returns to `AWAIT_CONTROL`. Completes: `wdata` at a data byte, in every
state with a length and a cursor inside the buffer, which 10_state.md R44 (c) gives (`StepKeepsInvariant`). -/
def Obligations.WriteDataByteIsStored : Prop :=
  ∀ (s : State) (b : Byte) (len : Word16),
    s.length = some len → s.wrCursor.toNat < s.cfg.maxFrameLen →
      exec (.wdata (.data b)) s = .next
        (if s.wrCursor + 1 = len then
          { s with
            payload := Memory.write s.payload s.wrCursor.toNat b
            wrCursor := s.wrCursor + 1, writeDataReq := true, state := .awaitControl }
        else
          { s with payload := Memory.write s.payload s.wrCursor.toNat b, wrCursor := s.wrCursor + 1 }) ∧
      (s.state = .transferWrite → receive b s = exec (.wdata (.data b)) s)

/-- 40_frame_decoder.md R122: a don't-care byte of a read data frame, whatever its value, advances the read cursor;
reaching `length` idles the sequencer and returns to `AWAIT_CONTROL`. Completes: `rdata` at a don't-care byte, in
every state with a length. -/
def Obligations.ReadDataByteIsCounted : Prop :=
  ∀ (s : State) (b : Byte) (len : Word16),
    s.length = some len →
      exec (.rdata (.data b)) s = .next
        (if s.rdCursor + 1 = len then
          { s with rdCursor := s.rdCursor + 1, txMode := .idle, state := .awaitControl }
        else { s with rdCursor := s.rdCursor + 1 }) ∧
      (s.state = .transferRead → receive b s = exec (.rdata (.data b)) s)

/-- 40_frame_decoder.md R123: the don't-care byte of a status frame idles the sequencer and ends the frame, whatever
its value. Completes: `status` at its don't-care byte. -/
def Obligations.StatusDontCareEndsFrame : Prop :=
  ∀ (s : State) (b : Byte),
    exec (.status (.dontCare b)) s = .next { s with txMode := .idle, state := .awaitControl } ∧
    (s.state = .awaitStatusSent → receive b s = .next { s with txMode := .idle, state := .awaitControl })

/-- 60_exceptions.md R181: a byte received in `AWAIT_CONTROL` whose high nibble is not `SYNC1_NIBBLE` is recorded
nowhere and changes no state. Completes: `ignoredByte`. -/
def Obligations.IgnoredByteChangesNothing : Prop :=
  ∀ (s : State) (b : Byte),
    s.state = .awaitControl → b.extractLsb' 4 4 ≠ s.cfg.sync1 →
      decodeByte s.cfg (decodeMode s) b = .ignoredByte (b.extractLsb' 4 4) (b.extractLsb' 0 4) ∧
      exec (.ignoredByte (b.extractLsb' 4 4) (b.extractLsb' 0 4)) s = .next s

/-- 40_frame_decoder.md section 3, AWAIT_SYNC, and 92_eei_decisions.md D10, D18: a match captures the low nibble and
goes to the queued state; a mismatch changes nothing but `state`, so what the control byte did is not undone and the
byte starts nothing. Completes: `syncByte`. -/
def Obligations.SyncByteAcceptsOrAbandons : Prop :=
  ∀ (s : State) (pattern low : Nibble),
    exec (.syncByte pattern low) s = .next
      (if pattern = s.cfg.sync2 then
        { s with
          lenHi := low
          state := match s.queued with
            | .awaitLenLow => .awaitLenLow
            | .transferRead => .transferRead
            | .transferWrite => .transferWrite
            | .awaitStatusSent => .awaitStatusSent }
      else { s with state := .awaitControl })

/-! ## Frames: what each instruction leaves unchanged -/

/-- The bytes of WINIT and RINIT (40_frame_decoder.md R110, last paragraph, R112, R113, R118 to R120) write `state`,
`queued`, `direction`, `length`, `addrHi`, `address` and `readDataReq` at most, which they never clear. -/
def Obligations.FrameOfInitBytes : Prop :=
  ∀ (s t : State) (byte : InitByte) (i : Instr),
    i = .winit byte ∨ i = .rinit byte → exec i s = .next t →
      t = { s with
        state := t.state, queued := t.queued, direction := t.direction, length := t.length
        addrHi := t.addrHi, address := t.address, readDataReq := t.readDataReq } ∧
      (s.readDataReq = true → t.readDataReq = true) ∧
      ((∀ x, byte ≠ .ctrl x) → t.direction = s.direction ∧ t.queued = s.queued) ∧
      ((∀ b, byte ≠ .lenLow b) → t.length = s.length) ∧
      ((∀ b, byte ≠ .addrHi b) → t.addrHi = s.addrHi) ∧
      ((∀ b, byte ≠ .addrLo b) → t.address = s.address ∧ t.readDataReq = s.readDataReq) ∧
      ∀ a, Memory.read t.payload a = Memory.read s.payload a

/-- The bytes of RDATA (R114, R122): no flag, no byte of the buffer, no frame field changes; a don't-care byte leaves
`txCursor` and `queued` alone. -/
def Obligations.FrameOfReadDataBytes : Prop :=
  ∀ (s t : State) (byte : DataByte),
    exec (.rdata byte) s = .next t →
      t = { s with
        state := t.state, queued := t.queued, rdCursor := t.rdCursor
        txCursor := t.txCursor, txMode := t.txMode } ∧
      ((∀ x, byte ≠ .ctrl x) → t.txCursor = s.txCursor ∧ t.queued = s.queued) ∧
      ∀ a, Memory.read t.payload a = Memory.read s.payload a

/-- The bytes of WDATA (R115, R121): the control byte stores nothing; a data byte stores at the write cursor as it was
before the byte and leaves every other byte of the buffer, and `queued`, alone; in a buffer in canonical form the
stored byte then reads back. -/
def Obligations.FrameOfWriteDataBytes : Prop :=
  (∀ (s t : State) (x : Field2),
    exec (.wdata (.ctrl x)) s = .next t →
      t = { s with state := t.state, queued := t.queued, wrCursor := t.wrCursor } ∧
      ∀ a, Memory.read t.payload a = Memory.read s.payload a) ∧
  ∀ (s t : State) (b : Byte),
    exec (.wdata (.data b)) s = .next t →
      t = { s with
        state := t.state, wrCursor := t.wrCursor, writeDataReq := t.writeDataReq, payload := t.payload } ∧
      (s.writeDataReq = true → t.writeDataReq = true) ∧
      (∀ a, a ≠ s.wrCursor.toNat → Memory.read t.payload a = Memory.read s.payload a) ∧
      (Memory.wf s.cfg.maxFrameLen s.payload = true → Memory.read t.payload s.wrCursor.toNat = b)

/-- The bytes of STATUS, the sync byte and the ignored byte (R111, R116, R117, R123): STATUS writes its own registers
and the six status flags, at its control byte alone; a sync byte writes `state` and `lenHi`; an ignored byte nothing;
none stores to the buffer. -/
def Obligations.FrameOfStatusAndFramingBytes : Prop :=
  (∀ (s t : State) (byte : PollByte),
    exec (.status byte) s = .next t →
      t = { s with
        state := t.state, queued := t.queued, txMode := t.txMode, statusByte := t.statusByte
        readDataReady := t.readDataReady, writeDataComplete := t.writeDataComplete
        rxOverRunError := t.rxOverRunError, txUnderRunError := t.txUnderRunError
        writeRegError := t.writeRegError, readRegError := t.readRegError } ∧
      ((∀ x, byte ≠ .ctrl x) → t = { s with state := t.state, txMode := t.txMode }) ∧
      ∀ a, Memory.read t.payload a = Memory.read s.payload a) ∧
  (∀ (s t : State) (pattern low : Nibble),
    exec (.syncByte pattern low) s = .next t →
      t = { s with state := t.state, lenHi := t.lenHi } ∧
      ∀ a, Memory.read t.payload a = Memory.read s.payload a) ∧
  ∀ (s t : State) (high low : Nibble), exec (.ignoredByte high low) s = .next t → t = s

/-! ## The step and the invocation -/

/-- 60_exceptions.md section 2, order of work, and 92_eei_decisions.md D7: where the next event is an invocation whose
received byte decodes to a well-formed instruction, the step is that instruction's `exec` between the capture of the
error indications and the transmit step; an invocation with no byte does the other two; with no event pending the
machine holds its state (R203). -/
def Obligations.StepRunsDecodedInstruction : Prop :=
  ∀ s : State,
    (∀ (snap : Snapshot) (rest : List Event) (b : Byte) (i : Instr),
      s.events = .invoke snap :: rest → snap.rx = some b →
        decode s.cfg (decodeMode s) [b] = .ok (i, []) → i.wellFormed s.cfg = true →
        step s = andThen (exec i (captureErrors snap.ovr snap.udr { s with events := rest }))
          (fun u => if snap.txReady then transmit u else .next u)) ∧
    (∀ (snap : Snapshot) (rest : List Event),
      s.events = .invoke snap :: rest → snap.rx = none →
        step s =
          if snap.txReady then transmit (captureErrors snap.ovr snap.udr { s with events := rest })
          else .next (captureErrors snap.ovr snap.udr { s with events := rest })) ∧
    (s.events = [] → step s = .next s)

/-- 60_exceptions.md section 1, receive overrun and transmit underrun, and 92_eei_decisions.md D23, D29: an invocation
with neither a byte nor a transmit request sets the flags its snapshot indicates, keeps the others, and changes
nothing else. -/
def Obligations.ErrorIndicationsAreSticky : Prop :=
  ∀ (s : State) (snap : Snapshot) (rest : List Event),
    s.events = .invoke snap :: rest → snap.rx = none → snap.txReady = false →
      step s = .next
        { s with
          events := rest
          rxOverRunError := if snap.ovr then true else s.rxOverRunError
          txUnderRunError := if snap.udr then true else s.txUnderRunError }

/-- 42_transmit_sequencer.md R161, R163: in STATUS mode the transmit-ready event emits the status byte once and drops
to IDLE, keeping the byte; in IDLE mode it emits 0x00 and writes nothing. -/
def Obligations.TransmitInStatusAndIdleMode : Prop :=
  ∀ (s : State) (rest : List Event),
    s.events = txEvent :: rest →
      (s.txMode = .status →
        step s = .next { s with events := rest, emitted := s.emitted ++ [s.statusByte], txMode := .idle }) ∧
      (s.txMode = .idle → step s = .next { s with events := rest, emitted := s.emitted ++ [0x00] })

/-- 42_transmit_sequencer.md, DATA mode, and 92_eei_decisions.md D13 (the wrap is at the capacity): the event emits
the buffer byte at the cursor; the cursor becomes 0 where it would reach `MAX_FRAME_LEN`, else advances by one. -/
def Obligations.TransmitInDataModeWraps : Prop :=
  ∀ (s : State) (rest : List Event),
    s.events = txEvent :: rest → s.txMode = .data → s.cfg.Valid → s.txCursor.toNat < s.cfg.maxFrameLen →
      ∃ t, step s = .next t ∧
        t = { s with
          events := rest, emitted := s.emitted ++ [Memory.read s.payload s.txCursor.toNat]
          txCursor := t.txCursor } ∧
        t.txCursor.toNat = (s.txCursor.toNat + 1) % s.cfg.maxFrameLen

/-- 42_transmit_sequencer.md R160: with `txReady` an invocation emits exactly one byte after the receive step, the
byte the mode selects, and the transmit step changes `txMode` and `txCursor` at most; without it nothing is emitted.
-/
def Obligations.TransmitEmitsOneByte : Prop :=
  ∀ (s u t : State) (snap : Snapshot),
    receiveIfPresent snap.rx (captureErrors snap.ovr snap.udr s) = .next u → invoke snap s = .next t →
      (snap.txReady = true →
        t = { u with emitted := t.emitted, txMode := t.txMode, txCursor := t.txCursor } ∧
        t.emitted = s.emitted ++
          [match u.txMode with
            | .status => u.statusByte
            | .data => Memory.read u.payload u.txCursor.toNat
            | .idle => 0x00]) ∧
      (snap.txReady = false → t = u ∧ t.emitted = s.emitted)

/-- 60_exceptions.md section 2, 95_test_vectors.md section 2.8, and 92_eei_decisions.md D7: an invocation that carries
the pair of a received byte and a transmit request does what the two events do one after the other. -/
def Obligations.PairIsReceiveThenTransmit : Prop :=
  ∀ (s : State) (b : Byte), runEvent (pairEvent b) s = runEvents [rxEvent b, txEvent] s

/-- The next `state` that the table of 40_frame_decoder.md R124 gives for a received byte. -/
def Sys2Proof.Claims.tableNextState (s : State) (b : Byte) : DecState :=
  match s.state with
  | .awaitControl => if b.extractLsb' 4 4 = s.cfg.sync1 then .awaitSync else .awaitControl
  | .awaitSync => if b.extractLsb' 4 4 = s.cfg.sync2 then s.queued.target else .awaitControl
  | .awaitLenLow =>
    if 0 < 256 * s.lenHi.toNat + b.toNat ∧ 256 * s.lenHi.toNat + b.toNat ≤ s.cfg.maxFrameLen then .awaitAddrHi
    else .awaitControl
  | .awaitAddrHi => .awaitAddrLo
  | .awaitAddrLo => .awaitControl
  | .transferWrite => if some (s.wrCursor + 1) = s.length then .awaitControl else .transferWrite
  | .transferRead => if some (s.rdCursor + 1) = s.length then .awaitControl else .transferRead
  | .awaitStatusSent => .awaitControl

/-- 40_frame_decoder.md, the transition table, and its totality: in every state that meets the invariant every byte
either takes the table's transition or is the DATA_ACCESS control byte without a committed length, which faults. -/
def Obligations.ReceiveFollowsTransitionTable : Prop :=
  ∀ (s : State) (b : Byte),
    Inv s →
      (∃ t, receive b s = .next t ∧ t.state = Claims.tableNextState s b) ∨
      (s.state = .awaitControl ∧ s.length = none ∧
        (∃ x, b = controlByte s.cfg s.cfg.opcDataAccess x) ∧ receive b s = .fault .dataAccessBeforeInit)

/-- 10_state.md section 2 and 40_frame_decoder.md, first paragraph of section 4: `state` does not change on a
transmit-ready event, on an error indication or on a dispatcher access. -/
def Obligations.StateMovesOnlyOnReceivedByte : Prop :=
  ∀ (s t : State), step s = .next t → t.state ≠ s.state →
    (∃ snap rest b, s.events = .invoke snap :: rest ∧ snap.rx = some b) ∨
    (∃ contents rest, s.events = .reset contents :: rest)

/-- 10_state.md R23, R25, R27 as readings of 92_eei_decisions.md D10, D11, D19: between resets `direction` is written
by an INIT control byte alone, `length` by the commit of a legal candidate alone, `address` by the second address byte
alone. -/
def Obligations.FrameFieldsHaveOneWriter : Prop :=
  ∀ (s t : State) (e : Event) (rest : List Event),
    s.events = e :: rest → (∀ contents, e ≠ .reset contents) → step s = .next t →
      (t.direction ≠ s.direction →
        ∃ snap b x, e = .invoke snap ∧ snap.rx = some b ∧ s.state = .awaitControl ∧
          (decodeByte s.cfg (decodeMode s) b = .winit (.ctrl x) ∨
            decodeByte s.cfg (decodeMode s) b = .rinit (.ctrl x))) ∧
      (t.length ≠ s.length →
        ∃ snap b len, e = .invoke snap ∧ snap.rx = some b ∧ s.state = .awaitLenLow ∧
          t.length = some len ∧ len.toNat = 256 * s.lenHi.toNat + b.toNat ∧ legalLength s.cfg len) ∧
      (t.address ≠ s.address →
        ∃ snap b, e = .invoke snap ∧ snap.rx = some b ∧ s.state = .awaitAddrLo ∧
          t.address = some (BitVec.ofNat 16 (256 * s.addrHi.toNat + b.toNat)))

/-- 20_memory.md R61, R67, R76: between resets the buffer is written by a byte received in `TRANSFER_WRITE`, at the
write cursor, or by one store of the dispatcher's read branch, at its index: one byte a step, inside the buffer. -/
def Obligations.BufferHasTwoWriters : Prop :=
  ∀ (s t : State) (e : Event) (rest : List Event),
    s.events = e :: rest → (∀ contents, e ≠ .reset contents) → step s = .next t → t.payload ≠ s.payload →
      (∃ snap b, e = .invoke snap ∧ snap.rx = some b ∧ s.state = .transferWrite ∧
        s.wrCursor.toNat < s.cfg.maxFrameLen ∧
        t.payload = Memory.write s.payload s.wrCursor.toNat b) ∨
      (∃ answer index b more failed, e = .main answer ∧ s.disp = .storePayload index (b :: more) failed ∧
        index < s.cfg.maxFrameLen ∧ t.payload = Memory.write s.payload index b)

/-- 43_dispatcher.md R177, 10_state.md R34 to R39, R43: an access of the main context leaves every register of the
block, every byte emitted and the hardware error flags alone; it never sets a request flag and never clears a
completion flag; and each flag it does change is changed at that flag's own place in the program order of
43_dispatcher.md R175 (the order is 92_eei_decisions.md D21). -/
def Obligations.MainContextKeepsBlockRegisters : Prop :=
  ∀ (s t : State) (answer : RegAnswer) (rest : List Event),
    s.events = .main answer :: rest → step s = .next t →
      t = { s with
        events := rest, disp := t.disp, regCalls := t.regCalls, payload := t.payload
        readDataReq := t.readDataReq, writeDataReq := t.writeDataReq
        readDataReady := t.readDataReady, writeDataComplete := t.writeDataComplete
        readRegError := t.readRegError, writeRegError := t.writeRegError } ∧
      (t.readDataReq ≠ s.readDataReq → t.readDataReq = false ∧ s.disp = .clearReadReq) ∧
      (t.writeDataReq ≠ s.writeDataReq → t.writeDataReq = false ∧ s.disp = .clearWriteReq) ∧
      (t.readDataReady ≠ s.readDataReady → t.readDataReady = true ∧ s.disp = .setReadReady) ∧
      (t.writeDataComplete ≠ s.writeDataComplete → t.writeDataComplete = true ∧ s.disp = .setWriteComplete) ∧
      (t.readRegError ≠ s.readRegError → s.disp = .writeReadError t.readRegError) ∧
      (t.writeRegError ≠ s.writeRegError → s.disp = .writeWriteError t.writeRegError)

/-- 10_state.md R34 to R41, R43, 20_memory.md R75, 60_exceptions.md R184, R185: what an invocation does to each of the
eight flags. It never clears a request flag and sets `readDataReq` only when the last byte of a read INIT frame is
received (R120), `writeDataReq` only when the last byte of a write data frame is (R121); it never sets a completion or
a register-error flag; it sets `rxOverRunError` only if its snapshot indicates an overrun, `txUnderRunError` only if
it indicates an underrun; it clears a status flag only if the byte received, in `AWAIT_CONTROL`, is a STATUS_READ
control byte, and then leaves all six false. It leaves the dispatcher and the collaborator's calls alone. -/
def Obligations.InvocationKeepsDispatcherFlags : Prop :=
  ∀ (s t : State) (snap : Snapshot) (rest : List Event),
    s.events = .invoke snap :: rest → step s = .next t →
      (t.readDataReq ≠ s.readDataReq →
        t.readDataReq = true ∧ s.state = .awaitAddrLo ∧ s.direction = true ∧ snap.rx.isSome = true) ∧
      (t.writeDataReq ≠ s.writeDataReq →
        t.writeDataReq = true ∧ s.state = .transferWrite ∧ s.length = some (s.wrCursor + 1) ∧
          snap.rx.isSome = true) ∧
      (t.readDataReady = true → s.readDataReady = true) ∧
      (t.writeDataComplete = true → s.writeDataComplete = true) ∧
      (t.readRegError = true → s.readRegError = true) ∧ (t.writeRegError = true → s.writeRegError = true) ∧
      (t.rxOverRunError = true → s.rxOverRunError = true ∨ snap.ovr = true) ∧
      (t.txUnderRunError = true → s.txUnderRunError = true ∨ snap.udr = true) ∧
      (s.readDataReady = true ∧ t.readDataReady = false ∨ s.writeDataComplete = true ∧ t.writeDataComplete = false ∨
          s.readRegError = true ∧ t.readRegError = false ∨ s.writeRegError = true ∧ t.writeRegError = false ∨
          s.rxOverRunError = true ∧ t.rxOverRunError = false ∨ s.txUnderRunError = true ∧ t.txUnderRunError = false →
        s.state = .awaitControl ∧
        (∃ b x, snap.rx = some b ∧ decodeByte s.cfg (decodeMode s) b = .status (.ctrl x)) ∧
        t.readDataReady = false ∧ t.writeDataComplete = false ∧ t.readRegError = false ∧
        t.writeRegError = false ∧ t.rxOverRunError = false ∧ t.txUnderRunError = false) ∧
      t.disp = s.disp ∧ t.regCalls = s.regCalls ∧ t.events = rest

/-- 00_scope.md R6: the configuration is fixed for the life of an instance. -/
def Obligations.ConfigurationIsFixed : Prop := ∀ s t : State, step s = .next t → t.cfg = s.cfg

/-! ## Reset and invariants -/

/-- 10_state.md section 9, whose values but `state` are the spec's own choice (92_eei_decisions.md D15 to D17), and
70_reset_and_hazards.md section 1: what a reset leaves, with any buffer contents, and that the reset event leaves it.
That the event starts the main context anew and empties the model's two logs of outputs is the model's choice (log
entries 5, 7). -/
def Obligations.ResetLeavesInitialValues : Prop :=
  (∀ (c : Cfg) (contents : List Byte),
    let r := State.resetWith c contents
    r.cfg = c ∧ r.state = .awaitControl ∧ r.txMode = .idle ∧ r.queued = .awaitLenLow ∧
    r.direction = false ∧ r.length = none ∧ r.address = none ∧ r.lenHi = 0 ∧ r.addrHi = 0 ∧
    r.wrCursor = 0 ∧ r.rdCursor = 0 ∧ r.txCursor = 0 ∧ r.statusByte = 0 ∧
    r.readDataReq = false ∧ r.writeDataReq = false ∧ r.readDataReady = false ∧
    r.writeDataComplete = false ∧ r.readRegError = false ∧ r.writeRegError = false ∧
    r.rxOverRunError = false ∧ r.txUnderRunError = false ∧
    (∀ (i : Nat) (h : i < contents.length), i < c.maxFrameLen → Memory.read r.payload i = contents[i])) ∧
  ∀ (s : State) (contents : List Byte) (rest : List Event),
    s.events = .reset contents :: rest →
      step s = .next { State.resetWith s.cfg contents with events := rest }

/-- 10_state.md section 7: the invariants hold right after a reset with any legal configuration and any buffer
contents; the host's reset state is one of these (log entries 1, 2). -/
def Obligations.ResetSatisfiesInvariant : Prop :=
  (∀ (c : Cfg) (contents : List Byte), c.Valid → Inv (State.resetWith c contents)) ∧ Inv State.reset

/-- 10_state.md section 7, R44 (a) to (e), (g), (h), with the canonical form of the buffer and the dispatcher's
locals: every step from a state that meets them, whatever event it delivers, leaves a state that meets them. -/
def Obligations.StepKeepsInvariant : Prop := ∀ s t : State, Inv s → step s = .next t → Inv t

/-- 60_exceptions.md section 1, last rule, and section 3, last rule, with 92_eei_decisions.md D5, D16: under the
invariant a step faults exactly when it delivers a DATA_ACCESS control byte in `AWAIT_CONTROL` while `length` has no
value. It is refused exactly when the collaborator's answer to a read is not as long as it was asked to be:
43_dispatcher.md R174 excludes such an answer, and that the model refuses it is the model's choice (log entry 11). -/
def Obligations.StepStopsExactlyWhen : Prop :=
  ∀ s : State, Inv s →
    (∀ e : Fault, step s = .fault e ↔
      e = .dataAccessBeforeInit ∧ s.state = .awaitControl ∧ s.length = none ∧
        ∃ snap rest x, s.events = .invoke snap :: rest ∧
          snap.rx = some (controlByte s.cfg s.cfg.opcDataAccess x)) ∧
    (∀ e : Refusal, step s = .refused e ↔
      ∃ answer rest len addr, s.events = .main answer :: rest ∧ s.disp = .regRead len addr ∧
        answer.bytes.length ≠ len.toNat ∧ e = .answerNotOfLength len answer.bytes.length)

/-- Delivering a list of events one step each is running the list (00_scope.md R12, R13: the schedule is an input). -/
def Obligations.StepsDeliverTheSchedule : Prop :=
  ∀ (es rest : List Event) (s t : State),
    runEvents es s = .next t →
      Sys2Proof.core.run es.length { s with events := es ++ rest } = .next { t with events := rest }

/-! ## The dispatcher -/

/-- 43_dispatcher.md, read branch, and 92_eei_decisions.md D21 (the error flag is assigned; the read branch runs
first): with a read request pending and an answer of `length` bytes, one call reads once with the live length and
address, stores the bytes from index 0, assigns the error flag, clears the request and sets the completion flag, on
failure too; with no write request pending it does nothing else. With both requests pending (R173) it goes on with the
write branch, which sends the bytes just loaded to the same range. -/
def Obligations.ReadBranchServesRequest : Prop :=
  ∀ (s : State) (answer other : RegAnswer) (len addr : Word16),
    s.readDataReq = true → s.length = some len → s.address = some addr → answer.bytes.length = len.toNat →
      (s.writeDataReq = false →
        dispatchCall answer other s = .next
          { s with
            payload := Memory.writeList s.payload 0 answer.bytes
            readRegError := answer.failed, readDataReq := false, readDataReady := true
            regCalls := s.regCalls ++ [.read len addr] }) ∧
      (s.writeDataReq = true → Memory.wf s.cfg.maxFrameLen s.payload = true → len.toNat ≤ s.cfg.maxFrameLen →
        dispatchCall answer other s = .next
          { s with
            payload := Memory.writeList s.payload 0 answer.bytes
            readRegError := answer.failed, readDataReq := false, readDataReady := true
            writeRegError := other.failed, writeDataReq := false, writeDataComplete := true
            regCalls := s.regCalls ++ [.read len addr, .write len addr answer.bytes] })

/-- 43_dispatcher.md R172: with a write request pending, one call writes once with the live length and address and the
buffer's first `length` bytes, assigns the error flag, clears the request and sets the completion flag, on failure
too; the buffer is not modified. Without one the branch does nothing. -/
def Obligations.WriteBranchServesRequest : Prop :=
  ∀ (s : State) (answer other : RegAnswer),
    s.readDataReq = false →
      (∀ len addr, s.writeDataReq = true → s.length = some len → s.address = some addr →
        dispatchCall other answer s = .next
          { s with
            writeRegError := answer.failed, writeDataReq := false, writeDataComplete := true
            regCalls := s.regCalls ++
              [.write len addr ((List.range len.toNat).map fun i => Memory.read s.payload i)] }) ∧
      (s.writeDataReq = false → dispatchCall other answer s = .next s)

/-- The accesses of one call of 43_dispatcher.md, each offered the answer of its branch: in each branch the test of
the request and, if it is set, two reads, the call, `length` byte accesses and three writes. -/
def Sys2Proof.Claims.callSchedule (readAnswer writeAnswer : RegAnswer) (s : State) : List Event :=
  let bytes := (s.length.getD 0).toNat
  List.replicate (if s.readDataReq then bytes + 7 else 1) (.main readAnswer) ++
    List.replicate (if s.writeDataReq then bytes + 7 else 1) (.main writeAnswer)

/-- 43_dispatcher.md sections on one call and on its order, with 92_eei_decisions.md D21: a call's accesses, delivered
with no invocation between them, amount to the read branch followed by the write branch as one operation; with neither
request set a call changes nothing. -/
def Obligations.UninterruptedAccessesAreOneCall : Prop :=
  ∀ (s : State) (readAnswer writeAnswer : RegAnswer),
    Inv s → s.disp = .idle →
      (∀ len, s.length = some len → readAnswer.bytes.length = len.toNat) →
      runEvents (Claims.callSchedule readAnswer writeAnswer s) s = dispatchCall readAnswer writeAnswer s ∧
      (s.readDataReq = false → s.writeDataReq = false → dispatchCall readAnswer writeAnswer s = .next s) ∧
      ∃ t, dispatchCall readAnswer writeAnswer s = .next t

/-- 43_dispatcher.md section on the capability: the pass-through store answers a read of a range just written with the
bytes written, not failing. That keys do not wrap past 0xFFFF is the model's choice (log entry 8). -/
def Obligations.PassThroughReadsBack : Prop :=
  ∀ (store : Memory) (size : Nat) (len addr : Word16) (bytes : List Byte),
    Memory.wf size store = true → addr.toNat + bytes.length ≤ size → bytes.length = len.toNat →
      (passThrough.regRead (passThrough.regWrite store len addr bytes).2 len addr).1 =
        { failed := false, bytes := bytes }

/-! ## Whole frames and transactions -/

/-- 30_encoding.md R86, R95, 40_frame_decoder.md R112, R113, R117 to R120 with 92_eei_decisions.md D10, D11: the five
bytes of an INIT frame with a legal length commit `length` and `address`, latch `direction`, raise `readDataReq` for a
read, and return to `AWAIT_CONTROL`. Run as bus slots (92_eei_decisions.md D6) with an IDLE sequencer, the frame does
the same and emits 0x00 in every slot (42_transmit_sequencer.md R167, first row). -/
def Obligations.InitFrameCommits : Prop :=
  ∀ (s : State) (len addr : Word16),
    s.cfg.Valid → s.state = .awaitControl → legalLength s.cfg len →
      let written : State := { s with
        direction := false, queued := .awaitLenLow, lenHi := len.extractLsb' 8 4, length := some len
        addrHi := addr.extractLsb' 8 8, address := some addr }
      let read : State := { s with
        direction := true, queued := .awaitLenLow, lenHi := len.extractLsb' 8 4, length := some len
        addrHi := addr.extractLsb' 8 8, address := some addr, readDataReq := true }
      runEvents (receiveEvents (frameBytes s.cfg (.winit len addr))) s = .next written ∧
      runEvents (receiveEvents (frameBytes s.cfg (.rinit len addr))) s = .next read ∧
      (s.txMode = .idle →
        runSlots (frameBytes s.cfg (.winit len addr)) s =
          .next { written with emitted := s.emitted ++ List.replicate 5 0x00 } ∧
        runSlots (frameBytes s.cfg (.rinit len addr)) s =
          .next { read with emitted := s.emitted ++ List.replicate 5 0x00 })

/-- 40_frame_decoder.md R115, R121 with the sync byte's capture of 92_eei_decisions.md D10: a write data frame of the
live length fills the buffer from index 0 and raises `writeDataReq`. Run as bus slots (92_eei_decisions.md D6) with an
IDLE sequencer, the frame does the same and emits 0x00 in every slot (42_transmit_sequencer.md R167, first row). -/
def Obligations.WriteFrameFillsBuffer : Prop :=
  ∀ (s : State) (len : Word16) (data : List Byte),
    s.cfg.Valid → s.state = .awaitControl → s.direction = false → s.length = some len →
      legalLength s.cfg len → data.length = len.toNat →
      let filled : State := { s with
        queued := .transferWrite, lenHi := len.extractLsb' 8 4, wrCursor := len
        payload := Memory.writeList s.payload 0 data, writeDataReq := true }
      runEvents (receiveEvents (frameBytes s.cfg (.wdata len data))) s = .next filled ∧
      (s.txMode = .idle →
        runSlots (frameBytes s.cfg (.wdata len data)) s =
          .next { filled with emitted := s.emitted ++ List.replicate (data.length + 2) 0x00 })

/-- 95_test_vectors.md E4 (the source's write property): from a state with no request pending, a write INIT frame, its
write data frame and one dispatcher call make exactly one call of the collaborator, a write with exactly that length,
address and payload, and set the completion flag. -/
def Obligations.WriteTransactionReachesCollaborator : Prop :=
  ∀ (s : State) (len addr : Word16) (data : List Byte) (readAnswer writeAnswer : RegAnswer),
    Inv s → s.state = .awaitControl → s.readDataReq = false → s.writeDataReq = false →
      legalLength s.cfg len → data.length = len.toNat →
      ∃ t, andThen
          (runEvents (receiveEvents
            (frameBytes s.cfg (.winit len addr) ++ frameBytes s.cfg (.wdata len data))) s)
          (dispatchCall readAnswer writeAnswer) = .next t ∧
        t.regCalls = s.regCalls ++ [.write len addr data] ∧ t.writeDataComplete = true ∧
        t.writeDataReq = false ∧ t.writeRegError = writeAnswer.failed ∧ t.state = .awaitControl

/-- 95_test_vectors.md E5 (the source's read-init property): a read INIT frame raises `readDataReq`, one dispatcher
call reads exactly once with that length and address, clears the request and sets the completion flag, and the buffer
then holds the answer's bytes. -/
def Obligations.ReadTransactionFillsBuffer : Prop :=
  ∀ (s : State) (len addr : Word16) (readAnswer writeAnswer : RegAnswer),
    Inv s → s.state = .awaitControl → s.readDataReq = false → s.writeDataReq = false →
      legalLength s.cfg len → readAnswer.bytes.length = len.toNat →
      ∃ u t, runEvents (receiveEvents (frameBytes s.cfg (.rinit len addr))) s = .next u ∧
        u.readDataReq = true ∧ dispatchCall readAnswer writeAnswer u = .next t ∧
        t.regCalls = s.regCalls ++ [.read len addr] ∧ t.readDataReady = true ∧ t.readDataReq = false ∧
        t.readRegError = readAnswer.failed ∧
        ∀ (i : Nat) (h : i < readAnswer.bytes.length), Memory.read t.payload i = readAnswer.bytes[i]

/-- 42_transmit_sequencer.md section on the bytes of each frame, under the slot model of 92_eei_decisions.md D6 and
the readings D5, D8, D9, D13: in a read data frame of length `L` the sequencer emits the filler, then `payload[0]` to
`payload[L - 1]`, then the leftover `payload[L mod MAX_FRAME_LEN]`, whatever the master sends in the don't-care
positions, and is idle again. -/
def Obligations.ReadFrameReturnsBuffer : Prop :=
  ∀ (s : State) (len : Word16) (x : Field2) (low : Nibble) (dontCare : List Byte),
    s.cfg.Valid → s.state = .awaitControl → s.txMode = .idle → s.direction = true →
      s.length = some len → legalLength s.cfg len → dontCare.length = len.toNat →
      ∃ t, runSlots (controlByte s.cfg s.cfg.opcDataAccess x :: nibblePair s.cfg.sync2 low :: dontCare) s =
          .next t ∧
        t.emitted = s.emitted ++ 0x00 ::
          ((List.range (len.toNat + 1)).map fun i => Memory.read s.payload (i % s.cfg.maxFrameLen)) ∧
        t.state = .awaitControl ∧ t.txMode = .idle ∧ t.rdCursor = len ∧ t.payload = s.payload

/-- 42_transmit_sequencer.md section on the bytes of each frame and 41_status_mux.md section on the path of the status
byte, under the slot model of 92_eei_decisions.md D6 and with D5: a status frame answers filler, status byte, filler,
whatever its don't-care bits, and clears the six flags. -/
def Obligations.StatusFrameReturnsStatus : Prop :=
  ∀ (s : State) (x : Field2) (low : Nibble) (dontCare : Byte),
    s.cfg.Valid → s.state = .awaitControl → s.txMode = .idle →
      runSlots [controlByte s.cfg s.cfg.opcStatusRead x, nibblePair s.cfg.sync2 low, dontCare] s = .next
        { s with
          emitted := s.emitted ++ [0x00, statusMux s, 0x00]
          statusByte := statusMux s, lenHi := low, queued := .awaitStatusSent
          readDataReady := false, writeDataComplete := false, rxOverRunError := false
          txUnderRunError := false, writeRegError := false, readRegError := false }

/-- 41_status_mux.md section on properties, (a), under the slot model of 92_eei_decisions.md D6: of two consecutive
polls with nothing between them the first returns the flags and the second returns 0x00. -/
def Obligations.SecondPollReturnsZero : Prop :=
  ∀ s : State,
    s.cfg.Valid → s.state = .awaitControl → s.txMode = .idle →
      ∃ t, runSlots (frameBytes s.cfg .status ++ frameBytes s.cfg .status) s = .next t ∧
        t.emitted = s.emitted ++ [0x00, statusMux s, 0x00, 0x00, 0x00, 0x00] ∧ t.state = .awaitControl

/-- 70_reset_and_hazards.md section 2, resynchronisation: from every state that meets the invariant, a run of at least
`max(3, MAX_FRAME_LEN)` bytes whose high nibble is neither sync pattern ends in `AWAIT_CONTROL`. -/
def Obligations.FlushReturnsToControl : Prop :=
  ∀ (s : State) (bytes : List Byte),
    Inv s → max 3 s.cfg.maxFrameLen ≤ bytes.length →
      (∀ b ∈ bytes, b.extractLsb' 4 4 ≠ s.cfg.sync1 ∧ b.extractLsb' 4 4 ≠ s.cfg.sync2) →
      ∃ t, runEvents (receiveEvents bytes) s = .next t ∧ t.state = .awaitControl

/-- 42_transmit_sequencer.md, the slot model (92_eei_decisions.md D6): the byte `T_k`, which the master receives as
`S_(k+1)`, does not depend on the master's bytes from slot `k` on. `before` are the bytes of slots 0 to k - 1. -/
def Obligations.SlaveBytesFollowEarlierSlots : Prop :=
  ∀ (s t t' : State) (before after after' : List Byte),
    after ≠ [] → after' ≠ [] →
    runSlots (before ++ after) s = .next t → runSlots (before ++ after') s = .next t' →
      t.emitted.take (s.emitted.length + before.length + 1) =
        t'.emitted.take (s.emitted.length + before.length + 1)

/-- 93_implementation_defined.md U10, with 92_eei_decisions.md D5: the bytes a master sends in the don't-care
positions of a read data frame, with the unused bits of its control byte and the low nibble of its sync byte, leave no
trace in the state but `lenHi`. -/
def Obligations.DontCareBytesLeaveNoTrace : Prop :=
  ∀ (s t t' : State) (x x' : Field2) (low low' : Nibble) (bytes bytes' : List Byte),
    Inv s → s.state = .awaitControl → s.direction = true → s.length.isSome = true →
      bytes.length = bytes'.length → bytes.length = (s.length.getD 0).toNat →
      runSlots (controlByte s.cfg s.cfg.opcDataAccess x :: nibblePair s.cfg.sync2 low :: bytes) s = .next t →
      runSlots (controlByte s.cfg s.cfg.opcDataAccess x' :: nibblePair s.cfg.sync2 low' :: bytes') s = .next t' →
        { t with lenHi := 0 } = { t' with lenHi := 0 }

/-- 70_reset_and_hazards.md section 2, abandoned status, read data and INIT frames, with 92_eei_decisions.md D5, D18:
a frame abandoned at its sync byte leaves what its control byte did: the flags stay cleared, the sequencer stays in
DATA mode, `direction` stays latched; `length`, `address` and the buffer are as before. -/
def Obligations.AbandonedFrameKeepsControlEffects : Prop :=
  ∀ (s : State) (x : Field2) (bad : Byte),
    s.cfg.Valid → s.state = .awaitControl → bad.extractLsb' 4 4 ≠ s.cfg.sync2 →
      runEvents (receiveEvents [controlByte s.cfg s.cfg.opcStatusRead x, bad]) s = .next
        { clearStatusFlags s with
          statusByte := statusMux s, txMode := .status, queued := .awaitStatusSent } ∧
      runEvents (receiveEvents [controlByte s.cfg s.cfg.opcReadInit x, bad]) s = .next
        { s with direction := true, queued := .awaitLenLow } ∧
      runEvents (receiveEvents [controlByte s.cfg s.cfg.opcWriteInit x, bad]) s = .next
        { s with direction := false, queued := .awaitLenLow } ∧
      (∀ len, s.length = some len → s.direction = true →
        runEvents (receiveEvents [controlByte s.cfg s.cfg.opcDataAccess x, bad]) s = .next
          { s with rdCursor := 0, txCursor := 0, txMode := .data, queued := .transferRead }) ∧
      (∀ len, s.length = some len → s.direction = false →
        runEvents (receiveEvents [controlByte s.cfg s.cfg.opcDataAccess x, bad]) s = .next
          { s with wrCursor := 0, queued := .transferWrite })

/-! ## The pseudo-instructions -/

/-- 30_encoding.md R96, WRITE, under the slot model of 92_eei_decisions.md D6 (with D5, D10, D11, D21): from a state
with no request and no write completion pending, the transaction makes exactly one call of the collaborator, a write
with exactly its length, address and data, and ends at the first poll after a dispatcher call, however many polls came
before and however many calls after; bit 4 of that poll's byte is the collaborator's failure. With no dispatcher call
it polls on. What stands for the application's schedule is the model's choice (log entry 20). -/
def Obligations.WriteTransactionCompletes : Prop :=
  ∀ (σ : Type) (C : Collaborator σ) (store : σ) (s : State) (addr : Word16) (data : List Byte)
    (early more : Nat) (later : List Nat),
    Inv s → s.state = .awaitControl → s.txMode = .idle → s.readDataReq = false → s.writeDataReq = false →
      s.writeDataComplete = false → (Transaction.write addr data).wellFormed s.cfg = true →
      let len := BitVec.ofNat 16 data.length
      (∃ t, runTransaction C (.write addr data) (List.replicate early 0 ++ (more + 1) :: later) store s =
          .ended (C.regWrite store len addr data).1 [] t (C.regWrite store len addr data).2 ∧
        t.regCalls = s.regCalls ++ [.write len addr data] ∧ t.writeDataReq = false ∧
        t.writeDataComplete = false ∧ t.state = .awaitControl ∧ t.txMode = .idle) ∧
      ∃ t, runTransaction C (.write addr data) (List.replicate early 0) store s = .waiting t store ∧
        t.regCalls = s.regCalls ∧ t.writeDataReq = true ∧ t.state = .awaitControl

/-- 30_encoding.md R96, READ, under the slot model of 92_eei_decisions.md D6 (with D5, D8 to D11, D13, D21): from a
state with no request and no read completion pending, the transaction makes exactly one call of the collaborator, a
read with exactly its length and address, at the first dispatcher call; if bit 5 of the poll that answers tells no
failure, the bytes its RDATA frame returns at positions 2 to `len + 1` are the collaborator's. With no dispatcher call
it polls on. That it ends without RDATA on failure is read from 95_test_vectors.md P10, and what stands for the
schedule is the model's choice (log entry 20). -/
def Obligations.ReadTransactionReturnsData : Prop :=
  ∀ (σ : Type) (C : Collaborator σ) (store : σ) (s : State) (addr len : Word16)
    (early more : Nat) (later : List Nat),
    Inv s → s.state = .awaitControl → s.txMode = .idle → s.readDataReq = false → s.writeDataReq = false →
      s.readDataReady = false → (Transaction.read addr len).wellFormed s.cfg = true →
      let answer := (C.regRead store len addr).1
      answer.bytes.length = len.toNat →
      (∃ t, runTransaction C (.read addr len) (List.replicate early 0 ++ (more + 1) :: later) store s =
          .ended answer.failed (if answer.failed then [] else answer.bytes) t (C.regRead store len addr).2 ∧
        t.regCalls = s.regCalls ++ [.read len addr] ∧ t.readDataReq = false ∧ t.readDataReady = false ∧
        t.state = .awaitControl ∧ t.txMode = .idle) ∧
      ∃ t, runTransaction C (.read addr len) (List.replicate early 0) store s = .waiting t store ∧
        t.regCalls = s.regCalls ∧ t.readDataReq = true ∧ t.state = .awaitControl

/-- 30_encoding.md R96, POLL: one status frame, whose returned byte at position 2 is the status byte of the flags as
they were (92_eei_decisions.md D6); no dispatcher call is made. -/
def Obligations.PollReturnsStatusByte : Prop :=
  ∀ (σ : Type) (C : Collaborator σ) (store : σ) (s : State) (calls : List Nat),
    s.cfg.Valid → s.state = .awaitControl → s.txMode = .idle →
      ∃ t, runTransaction C .poll calls store s = .ended false [statusMux s] t store ∧
        t.regCalls = s.regCalls ∧ statusMux t = 0x00 ∧ t.state = .awaitControl

/-- 95_test_vectors.md E3 (the source's round trip): with the pass-through store, a WRITE and then a READ of the same
range inside the store return the bytes written, neither failing (30_encoding.md R96, 92_eei_decisions.md D6; log
entries 8, 20). -/
def Obligations.WriteThenReadReturnsData : Prop :=
  ∀ (size : Nat) (store : Memory) (s : State) (addr : Word16) (data : List Byte),
    Inv s → s.state = .awaitControl → s.txMode = .idle → s.readDataReq = false → s.writeDataReq = false →
      s.readDataReady = false → s.writeDataComplete = false → (Transaction.write addr data).wellFormed s.cfg = true →
      Memory.wf size store = true → addr.toNat + data.length ≤ size →
      ∃ t store' u, runTransaction passThrough (.write addr data) [1] store s = .ended false [] t store' ∧
        runTransaction passThrough (.read addr (BitVec.ofNat 16 data.length)) [1] store' t =
          .ended false data u store'
end

