-- ==== Sys2Proof/Laws/Decode.lean ====
section
/-! SUPPORT. The fields of a byte and the bytes made of fields (30_encoding.md R81, R82), and how a control byte of each
opcode decodes under a legal configuration. -/

namespace Sys2Proof

@[simp] theorem highNibble_controlByte (c : Cfg) (code x : Field2) :
    highNibble (controlByte c code x) = c.sync1 := by
  have : ∀ (n : Nibble) (x code : Field2), highNibble (n ++ x ++ code) = n := by decide
  exact this _ _ _

@[simp] theorem opcodeField_controlByte (c : Cfg) (code x : Field2) :
    opcodeField (controlByte c code x) = code := by
  have : ∀ (n : Nibble) (x code : Field2), opcodeField (n ++ x ++ code) = code := by decide
  exact this _ _ _

@[simp] theorem unusedField_controlByte (c : Cfg) (code x : Field2) :
    unusedField (controlByte c code x) = x := by
  have : ∀ (n : Nibble) (x code : Field2), unusedField (n ++ x ++ code) = x := by decide
  exact this _ _ _

@[simp] theorem highNibble_nibblePair (high low : Nibble) : highNibble (nibblePair high low) = high := by
  revert high low; decide

@[simp] theorem lowNibble_nibblePair (high low : Nibble) : lowNibble (nibblePair high low) = low := by
  revert high low; decide

/-- A byte is its two nibbles. -/
@[simp] theorem nibblePair_fields (b : Byte) : nibblePair (highNibble b) (lowNibble b) = b := by
  revert b; decide

/-- A byte that carries `SYNC1_NIBBLE` is the control byte of its fields. -/
theorem controlByte_fields {c : Cfg} {b : Byte} (h : highNibble b = c.sync1) :
    controlByte c (opcodeField b) (unusedField b) = b := by
  have : ∀ b : Byte, highNibble b ++ unusedField b ++ opcodeField b = b := by decide
  unfold controlByte
  rw [← h]
  exact this b

/-- The four codes are all four 2-bit values (R89): a code that is none of three is the fourth. -/
theorem Cfg.Valid.code_eq {c : Cfg} (v : c.Valid) {code : Field2} (h0 : code ≠ c.opcWriteInit)
    (h1 : code ≠ c.opcReadInit) (h2 : code ≠ c.opcDataAccess) : code = c.opcStatusRead := by
  obtain ⟨⟨a, b, d, e, f, g⟩, -⟩ := v
  generalize c.opcWriteInit = w at *
  generalize c.opcReadInit = r at *
  generalize c.opcDataAccess = da at *
  generalize c.opcStatusRead = st at *
  revert a b d e f g h0 h1 h2
  revert code w r da st
  decide

theorem decodeControl_writeInit {c : Cfg} (m : DecodeMode) (x : Field2) :
    decodeControl c m (controlByte c c.opcWriteInit x) = .winit (.ctrl x) := by
  simp [decodeControl]

theorem decodeControl_readInit {c : Cfg} (v : c.Valid) (m : DecodeMode) (x : Field2) :
    decodeControl c m (controlByte c c.opcReadInit x) = .rinit (.ctrl x) := by
  simp [decodeControl, v.1.1.symm]

theorem decodeControl_dataAccess {c : Cfg} (v : c.Valid) (m : DecodeMode) (x : Field2) :
    decodeControl c m (controlByte c c.opcDataAccess x) =
      if m.hasLength then if m.direction then .rdata (.ctrl x) else .wdata (.ctrl x)
      else .dataAccessNoLength x := by
  simp [decodeControl, v.1.2.1.symm, v.1.2.2.2.1.symm]

theorem decodeControl_statusRead {c : Cfg} (v : c.Valid) (m : DecodeMode) (x : Field2) :
    decodeControl c m (controlByte c c.opcStatusRead x) = .status (.ctrl x) := by
  simp [decodeControl, v.1.2.2.1.symm, v.1.2.2.2.2.1.symm, v.1.2.2.2.2.2.symm]

end Sys2Proof

namespace Sys2Proof.Machine

/-- R110: outside `AWAIT_CONTROL` and `AWAIT_SYNC` the byte is executed as the row its state names. -/
theorem receive_of_state (b : Byte) (s : State) :
    receive b s =
      match s.state with
      | .awaitControl => exec (decodeControl s.cfg (decodeMode s) b) s
      | .awaitSync => execSyncByte (highNibble b) (lowNibble b) s
      | .awaitLenLow => .next (acquireLength b s)
      | .awaitAddrHi => .next (acquireAddrHi b s)
      | .awaitAddrLo => .next (acquireAddrLo b s)
      | .transferRead => countRead s
      | .transferWrite => storeWrite b s
      | .awaitStatusSent => .next (endStatus s) := by
  unfold receive decodeByte decodeMode initInstr
  cases h : s.state <;> simp only [] <;> first | rfl | (split <;> rfl)

/-- R111 to R116, R127: what a byte received in `AWAIT_CONTROL` does. -/
theorem receive_control {s : State} (v : s.cfg.Valid) (h : s.state = .awaitControl) (b : Byte) :
    (highNibble b ≠ s.cfg.sync1 ∧ receive b s = .next s) ∨
    (∃ x, b = controlByte s.cfg s.cfg.opcWriteInit x ∧ receive b s = .next (startInit false s)) ∨
    (∃ x, b = controlByte s.cfg s.cfg.opcReadInit x ∧ receive b s = .next (startInit true s)) ∨
    (∃ x, b = controlByte s.cfg s.cfg.opcDataAccess x ∧
      ((s.length = none ∧ receive b s = .fault .dataAccessBeforeInit) ∨
        (s.length.isSome ∧ s.direction = true ∧ receive b s = .next (startRead s)) ∨
        (s.length.isSome ∧ s.direction = false ∧ receive b s = .next (startWrite s)))) ∨
    (∃ x, b = controlByte s.cfg s.cfg.opcStatusRead x ∧ receive b s = .next (startStatus s)) := by
  rw [receive_of_state, h]
  by_cases hn : highNibble b = s.cfg.sync1
  · have hb := controlByte_fields hn
    by_cases h0 : opcodeField b = s.cfg.opcWriteInit
    · rw [h0] at hb
      refine .inr (.inl ⟨_, hb.symm, ?_⟩)
      rw [← hb, decodeControl_writeInit]; rfl
    · by_cases h1 : opcodeField b = s.cfg.opcReadInit
      · rw [h1] at hb
        refine .inr (.inr (.inl ⟨_, hb.symm, ?_⟩))
        rw [← hb, decodeControl_readInit v]; rfl
      · by_cases h2 : opcodeField b = s.cfg.opcDataAccess
        · rw [h2] at hb
          refine .inr (.inr (.inr (.inl ⟨_, hb.symm, ?_⟩)))
          rw [← hb, decodeControl_dataAccess v]
          cases hl : s.length with
          | none => simp [decodeMode, hl, exec, execDataAccessNoLength]
          | some len =>
            cases hd : s.direction <;> simp [decodeMode, hl, hd, exec, execRdata, execWdata]
        · have h3 := v.code_eq h0 h1 h2
          rw [h3] at hb
          refine .inr (.inr (.inr (.inr ⟨_, hb.symm, ?_⟩)))
          rw [← hb, decodeControl_statusRead v]; rfl
  · refine .inl ⟨hn, ?_⟩
    simp [decodeControl, hn, exec, execIgnoredByte]

end Sys2Proof.Machine
end

