-- ==== Sys2Proof/Laws/Memory.lean ====
section
/-! SUPPORT. The laws of the payload buffer: a read after a write, and the canonical form that every operation keeps. -/

namespace Sys2Proof.Machine

@[simp] theorem Memory.read_nil (a : Nat) : Memory.read [] a = Memory.unlisted := rfl

theorem Memory.read_cons (k : Nat) (v : Byte) (m : Memory) (a : Nat) :
    Memory.read ((k, v) :: m) a = if k = a then v else Memory.read m a := rfl

/-- The canonical form of a memory whose first entry is known. -/
theorem Memory.wfFrom_cons {hi lo k : Nat} {v : Byte} {m : Memory} :
    Memory.wfFrom hi lo ((k, v) :: m) = true ↔
      lo ≤ k ∧ k < hi ∧ v ≠ Memory.unlisted ∧ Memory.wfFrom hi (k + 1) m = true := by
  simp [Memory.wfFrom, and_assoc]

/-- The canonical form from an index is the canonical form from any lower one. -/
theorem Memory.wfFrom_mono {hi lo lo' : Nat} {m : Memory} (h : Memory.wfFrom hi lo m = true)
    (le : lo' ≤ lo) : Memory.wfFrom hi lo' m = true := by
  cases m with
  | nil => rfl
  | cons e m =>
    obtain ⟨k, v⟩ := e
    rw [Memory.wfFrom_cons] at h ⊢
    exact ⟨le.trans h.1, h.2⟩

/-- Below the first index nothing is listed. -/
theorem Memory.read_below {hi lo a : Nat} {m : Memory} (h : Memory.wfFrom hi lo m = true)
    (lt : a < lo) : Memory.read m a = Memory.unlisted := by
  induction m generalizing lo with
  | nil => rfl
  | cons e m ih =>
    obtain ⟨k, v⟩ := e
    rw [Memory.wfFrom_cons] at h
    rw [Memory.read_cons, if_neg (by omega), ih h.2.2.2 (by omega)]

/-- Leaving out an entry that says what an unlisted index reads as changes no other byte. -/
theorem Memory.read_cons_other {a a' : Nat} (v : Byte) (m : Memory) (ne : a' ≠ a) :
    Memory.read (Memory.cons a v m) a' = Memory.read m a' := by
  unfold Memory.cons
  split
  · rfl
  · rw [Memory.read_cons, if_neg (Ne.symm ne)]

/-- An entry in front of a memory that lists nothing at its index reads as its byte. -/
theorem Memory.read_cons_same {hi a : Nat} (v : Byte) {m : Memory}
    (h : Memory.wfFrom hi (a + 1) m = true) : Memory.read (Memory.cons a v m) a = v := by
  unfold Memory.cons
  split
  · next e => rw [Memory.read_below h (Nat.lt_succ_self a), e]
  · rw [Memory.read_cons, if_pos rfl]

/-- A write leaves every other byte alone. -/
theorem Memory.read_write_other {a a' : Nat} (v : Byte) (m : Memory) (ne : a' ≠ a) :
    Memory.read (Memory.write m a v) a' = Memory.read m a' := by
  induction m with
  | nil => exact Memory.read_cons_other v [] ne
  | cons e m ih =>
    obtain ⟨k, w⟩ := e
    unfold Memory.write
    split
    · exact Memory.read_cons_other v _ ne
    · split
      · next h => rw [Memory.read_cons_other v m ne, Memory.read_cons, if_neg (by omega)]
      · rw [Memory.read_cons, Memory.read_cons, ih]

/-- A read after a write to the same index gives the byte written. -/
theorem Memory.read_write_same {hi lo a : Nat} (v : Byte) {m : Memory}
    (h : Memory.wfFrom hi lo m = true) : Memory.read (Memory.write m a v) a = v := by
  induction m generalizing lo with
  | nil => exact Memory.read_cons_same (hi := hi) v (m := []) rfl
  | cons e m ih =>
    obtain ⟨k, w⟩ := e
    have hk := Memory.wfFrom_cons.mp h
    unfold Memory.write
    split
    · exact Memory.read_cons_same v (Memory.wfFrom_cons.mpr ⟨by omega, hk.2⟩)
    · split
      · next e => subst e; exact Memory.read_cons_same v hk.2.2.2
      · rw [Memory.read_cons, if_neg (by omega), ih hk.2.2.2]

/-- An entry in front keeps the canonical form. -/
theorem Memory.wf_cons {hi lo a : Nat} (v : Byte) {m : Memory} (h : Memory.wfFrom hi (a + 1) m = true)
    (le : lo ≤ a) (lt : a < hi) : Memory.wfFrom hi lo (Memory.cons a v m) = true := by
  unfold Memory.cons
  split
  · exact Memory.wfFrom_mono h (by omega)
  · next ne => exact Memory.wfFrom_cons.mpr ⟨le, lt, ne, h⟩

/-- A write inside the buffer keeps the canonical form. -/
theorem Memory.wf_write_from {hi lo a : Nat} (v : Byte) {m : Memory} (h : Memory.wfFrom hi lo m = true)
    (le : lo ≤ a) (lt : a < hi) : Memory.wfFrom hi lo (Memory.write m a v) = true := by
  induction m generalizing lo with
  | nil => exact Memory.wf_cons v rfl le lt
  | cons e m ih =>
    obtain ⟨k, w⟩ := e
    have hk := Memory.wfFrom_cons.mp h
    unfold Memory.write
    split
    · exact Memory.wf_cons v (Memory.wfFrom_cons.mpr ⟨by omega, hk.2⟩) le lt
    · split
      · next e => subst e; exact Memory.wf_cons v hk.2.2.2 le lt
      · exact Memory.wfFrom_cons.mpr ⟨hk.1, hk.2.1, hk.2.2.1, ih hk.2.2.2 (by omega)⟩

theorem Memory.wf_write {size a : Nat} (v : Byte) {m : Memory} (h : Memory.wf size m = true)
    (lt : a < size) : Memory.wf size (Memory.write m a v) = true :=
  Memory.wf_write_from v h (Nat.zero_le a) lt

/-- A list of bytes written inside the buffer keeps the canonical form. -/
theorem Memory.wf_writeList {size a : Nat} {m : Memory} (bytes : List Byte)
    (h : Memory.wf size m = true) (le : a + bytes.length ≤ size) :
    Memory.wf size (Memory.writeList m a bytes) = true := by
  induction bytes generalizing m a with
  | nil => exact h
  | cons b rest ih =>
    rw [List.length_cons] at le
    exact ih (Memory.wf_write b h (by omega)) (by omega)

/-- A list of bytes leaves every byte outside its range alone. -/
theorem Memory.read_writeList_other {a i : Nat} (m : Memory) (bytes : List Byte)
    (out : i < a ∨ a + bytes.length ≤ i) :
    Memory.read (Memory.writeList m a bytes) i = Memory.read m i := by
  induction bytes generalizing m a with
  | nil => rfl
  | cons b rest ih =>
    rw [List.length_cons] at out
    unfold Memory.writeList
    rw [ih (Memory.write m a b) (by omega), Memory.read_write_other b m (by omega)]

/-- Inside its range a written list reads back. -/
theorem Memory.read_writeList {size a : Nat} {m : Memory} (bytes : List Byte)
    (h : Memory.wf size m = true) (le : a + bytes.length ≤ size) (i : Nat) (lt : i < bytes.length) :
    Memory.read (Memory.writeList m a bytes) (a + i) = bytes[i] := by
  induction bytes generalizing m a i with
  | nil => exact absurd lt (Nat.not_lt_zero i)
  | cons b rest ih =>
    rw [List.length_cons] at le
    unfold Memory.writeList
    cases i with
    | zero =>
      rw [Memory.read_writeList_other _ rest (by omega), Nat.add_zero]
      exact Memory.read_write_same b h
    | succ i =>
      have inRest : i < rest.length := Nat.lt_of_succ_lt_succ lt
      have := ih (Memory.wf_write b h (a := a) (by omega)) (a := a + 1) (by omega) i inRest
      rw [List.getElem_cons_succ, ← this]
      congr 1
      omega

@[simp] theorem Memory.readList_length (m : Memory) (a n : Nat) :
    (Memory.readList m a n).length = n := by simp [Memory.readList]

/-- Two memories in canonical form that read the same are the same data. -/
theorem Memory.ext_of_read {hi lo : Nat} {m m' : Memory} (h : Memory.wfFrom hi lo m = true)
    (h' : Memory.wfFrom hi lo m' = true) (same : ∀ a, Memory.read m a = Memory.read m' a) : m = m' := by
  induction m generalizing m' lo with
  | nil =>
    cases m' with
    | nil => rfl
    | cons e m' =>
      obtain ⟨k, v⟩ := e
      have hk := Memory.wfFrom_cons.mp h'
      have := same k
      rw [Memory.read_cons, if_pos rfl] at this
      exact absurd this.symm hk.2.2.1
  | cons e m ih =>
    obtain ⟨k, v⟩ := e
    have hk := Memory.wfFrom_cons.mp h
    cases m' with
    | nil =>
      have := same k
      rw [Memory.read_cons, if_pos rfl] at this
      exact absurd this hk.2.2.1
    | cons e' m' =>
      obtain ⟨k', v'⟩ := e'
      have hk' := Memory.wfFrom_cons.mp h'
      have eqk : k = k' := by
        rcases Nat.lt_trichotomy k k' with lt | eq | gt
        · have := same k
          rw [Memory.read_cons, if_pos rfl, Memory.read_cons, if_neg (by omega),
            Memory.read_below hk'.2.2.2 (by omega)] at this
          exact absurd this hk.2.2.1
        · exact eq
        · have := same k'
          rw [Memory.read_cons, if_neg (by omega), Memory.read_below hk.2.2.2 (by omega),
            Memory.read_cons, if_pos rfl] at this
          exact absurd this.symm hk'.2.2.1
      subst eqk
      have eqv : v = v' := by
        have := same k
        rwa [Memory.read_cons, if_pos rfl, Memory.read_cons, if_pos rfl] at this
      subst eqv
      rw [ih hk.2.2.2 hk'.2.2.2 fun a => ?_]
      by_cases e : k = a
      · subst e
        rw [Memory.read_below hk.2.2.2 (by omega), Memory.read_below hk'.2.2.2 (by omega)]
      · have := same a
        rwa [Memory.read_cons, if_neg e, Memory.read_cons, if_neg e] at this

/-- The reset contents of the buffer are in canonical form. -/
theorem State.resetWith_payload_wf (c : Cfg) (contents : List Byte) :
    Memory.wf c.maxFrameLen (State.resetWith c contents).payload = true :=
  Memory.wf_writeList _ rfl (by simp)

/-- The memory of the host's reset state is in canonical form. -/
theorem State.reset_payload_wf : Memory.wf State.reset.cfg.maxFrameLen State.reset.payload = true := rfl

end Sys2Proof.Machine
end

