-- ==== Sys2Proof/Laws/Operands.lean ====
section
/-! SUPPORT. The operand forms as numbers, and that the fields of a frame are assembled back into its operands. -/

namespace Sys2Proof.Machine

/-- R87 as arithmetic. -/
theorem lengthCandidate_toNat (hi : Nibble) (b : Byte) :
    (lengthCandidate hi b).toNat = 256 * hi.toNat + b.toNat := by
  unfold lengthCandidate
  have := hi.isLt
  have := b.isLt
  rw [BitVec.toNat_setWidth, BitVec.toNat_append, Nat.shiftLeft_eq, Nat.mul_comm,
    ← Nat.two_pow_add_eq_or_of_lt (by omega)]
  omega

theorem lengthCandidate_eq_ofNat (hi : Nibble) (b : Byte) :
    lengthCandidate hi b = BitVec.ofNat 16 (256 * hi.toNat + b.toNat) := by
  apply BitVec.eq_of_toNat_eq
  have := hi.isLt
  have := b.isLt
  rw [lengthCandidate_toNat, BitVec.toNat_ofNat]
  omega

/-- R88 as arithmetic. -/
theorem addressFrom_eq_ofNat (hi b : Byte) :
    addressFrom hi b = BitVec.ofNat 16 (256 * hi.toNat + b.toNat) := by
  apply BitVec.eq_of_toNat_eq
  unfold addressFrom
  have := hi.isLt
  have := b.isLt
  rw [BitVec.toNat_append, Nat.shiftLeft_eq, Nat.mul_comm, ← Nat.two_pow_add_eq_or_of_lt (by omega),
    BitVec.toNat_ofNat]
  omega

/-- R118, R125 (c): the range check is the legality of the candidate. -/
theorem lengthIsValid_iff {c : Cfg} {cand : Word16} : lengthIsValid c cand = true ↔ legalLength c cand := by
  simp [lengthIsValid, legalLength, Nat.lt_iff_add_one_le]

/-- The two fields of a legal length are assembled back into it. -/
theorem lengthCandidate_of_fields {c : Cfg} (valid : c.Valid) {len : Word16} (legal : legalLength c len) :
    lengthCandidate (len.extractLsb' 8 4) (len.extractLsb' 0 8) = len := by
  have := legal.2
  have := valid.2.2
  rw [lengthCandidate_eq_ofNat]
  apply BitVec.eq_of_toNat_eq
  simp [BitVec.extractLsb'_toNat, Nat.shiftRight_eq_div_pow]
  omega

/-- The two bytes of an address are assembled back into it. -/
theorem addressFrom_of_fields (addr : Word16) :
    addressFrom (addr.extractLsb' 8 8) (addr.extractLsb' 0 8) = addr := by
  rw [addressFrom_eq_ofNat]
  apply BitVec.eq_of_toNat_eq
  have := addr.isLt
  simp [BitVec.extractLsb'_toNat, Nat.shiftRight_eq_div_pow]
  omega

/-- A cursor below a length does not wrap, and stays below it unless it reaches it (R125 (d)). -/
theorem nextCursor_toNat {cursor len : Word16} (below : cursor.toNat < len.toNat) :
    (nextCursor cursor).toNat = cursor.toNat + 1 := by
  have := len.isLt
  unfold nextCursor
  rw [BitVec.toNat_add]
  simp
  omega

theorem nextCursor_lt {cursor len : Word16} (below : cursor.toNat < len.toNat)
    (ne : nextCursor cursor ≠ len) : (nextCursor cursor).toNat < len.toNat := by
  have := nextCursor_toNat below
  have : (nextCursor cursor).toNat ≠ len.toNat := fun e => ne (BitVec.eq_of_toNat_eq e)
  omega

/-- R162: the transmit cursor counts modulo the buffer's capacity. -/
theorem nextTxCursor_toNat {c : Cfg} (valid : c.Valid) {cursor : Word16}
    (below : cursor.toNat < c.maxFrameLen) :
    (nextTxCursor c cursor).toNat = (cursor.toNat + 1) % c.maxFrameLen := by
  have := valid.2
  unfold nextTxCursor
  split
  · next h => simp [h]
  · rw [Nat.mod_eq_of_lt (by omega), BitVec.toNat_add]
    simp
    omega

end Sys2Proof.Machine
end

