-- ==== Sys2Proof/Laws/State.lean ====
section
/-! SUPPORT. One lemma per field per named update of the state, true by rfl: a proof about a meaning never unfolds a
record update. -/

namespace Sys2Proof.Machine

/-! `abandonFrame` (R182, R183, R193) -/

@[simp] theorem abandonFrame_cfg (s : State) : (abandonFrame s).cfg = s.cfg := rfl
@[simp] theorem abandonFrame_state (s : State) : (abandonFrame s).state = .awaitControl := rfl
@[simp] theorem abandonFrame_queued (s : State) : (abandonFrame s).queued = s.queued := rfl
@[simp] theorem abandonFrame_direction (s : State) : (abandonFrame s).direction = s.direction := rfl
@[simp] theorem abandonFrame_lenHi (s : State) : (abandonFrame s).lenHi = s.lenHi := rfl
@[simp] theorem abandonFrame_length (s : State) : (abandonFrame s).length = s.length := rfl
@[simp] theorem abandonFrame_addrHi (s : State) : (abandonFrame s).addrHi = s.addrHi := rfl
@[simp] theorem abandonFrame_address (s : State) : (abandonFrame s).address = s.address := rfl
@[simp] theorem abandonFrame_wrCursor (s : State) : (abandonFrame s).wrCursor = s.wrCursor := rfl
@[simp] theorem abandonFrame_rdCursor (s : State) : (abandonFrame s).rdCursor = s.rdCursor := rfl
@[simp] theorem abandonFrame_txCursor (s : State) : (abandonFrame s).txCursor = s.txCursor := rfl
@[simp] theorem abandonFrame_txMode (s : State) : (abandonFrame s).txMode = s.txMode := rfl
@[simp] theorem abandonFrame_statusByte (s : State) : (abandonFrame s).statusByte = s.statusByte := rfl
@[simp] theorem abandonFrame_payload (s : State) : (abandonFrame s).payload = s.payload := rfl
@[simp] theorem abandonFrame_readDataReq (s : State) : (abandonFrame s).readDataReq = s.readDataReq := rfl
@[simp] theorem abandonFrame_writeDataReq (s : State) : (abandonFrame s).writeDataReq = s.writeDataReq := rfl
@[simp] theorem abandonFrame_readDataReady (s : State) : (abandonFrame s).readDataReady = s.readDataReady := rfl
@[simp] theorem abandonFrame_writeDataComplete (s : State) : (abandonFrame s).writeDataComplete = s.writeDataComplete := rfl
@[simp] theorem abandonFrame_readRegError (s : State) : (abandonFrame s).readRegError = s.readRegError := rfl
@[simp] theorem abandonFrame_writeRegError (s : State) : (abandonFrame s).writeRegError = s.writeRegError := rfl
@[simp] theorem abandonFrame_rxOverRunError (s : State) : (abandonFrame s).rxOverRunError = s.rxOverRunError := rfl
@[simp] theorem abandonFrame_txUnderRunError (s : State) : (abandonFrame s).txUnderRunError = s.txUnderRunError := rfl
@[simp] theorem abandonFrame_disp (s : State) : (abandonFrame s).disp = s.disp := rfl
@[simp] theorem abandonFrame_regCalls (s : State) : (abandonFrame s).regCalls = s.regCalls := rfl
@[simp] theorem abandonFrame_emitted (s : State) : (abandonFrame s).emitted = s.emitted := rfl
@[simp] theorem abandonFrame_events (s : State) : (abandonFrame s).events = s.events := rfl

/-! `emit` (R10, R13) -/

@[simp] theorem emit_cfg (b : Byte) (s : State) : (emit b s).cfg = s.cfg := rfl
@[simp] theorem emit_state (b : Byte) (s : State) : (emit b s).state = s.state := rfl
@[simp] theorem emit_queued (b : Byte) (s : State) : (emit b s).queued = s.queued := rfl
@[simp] theorem emit_direction (b : Byte) (s : State) : (emit b s).direction = s.direction := rfl
@[simp] theorem emit_lenHi (b : Byte) (s : State) : (emit b s).lenHi = s.lenHi := rfl
@[simp] theorem emit_length (b : Byte) (s : State) : (emit b s).length = s.length := rfl
@[simp] theorem emit_addrHi (b : Byte) (s : State) : (emit b s).addrHi = s.addrHi := rfl
@[simp] theorem emit_address (b : Byte) (s : State) : (emit b s).address = s.address := rfl
@[simp] theorem emit_wrCursor (b : Byte) (s : State) : (emit b s).wrCursor = s.wrCursor := rfl
@[simp] theorem emit_rdCursor (b : Byte) (s : State) : (emit b s).rdCursor = s.rdCursor := rfl
@[simp] theorem emit_txCursor (b : Byte) (s : State) : (emit b s).txCursor = s.txCursor := rfl
@[simp] theorem emit_txMode (b : Byte) (s : State) : (emit b s).txMode = s.txMode := rfl
@[simp] theorem emit_statusByte (b : Byte) (s : State) : (emit b s).statusByte = s.statusByte := rfl
@[simp] theorem emit_payload (b : Byte) (s : State) : (emit b s).payload = s.payload := rfl
@[simp] theorem emit_readDataReq (b : Byte) (s : State) : (emit b s).readDataReq = s.readDataReq := rfl
@[simp] theorem emit_writeDataReq (b : Byte) (s : State) : (emit b s).writeDataReq = s.writeDataReq := rfl
@[simp] theorem emit_readDataReady (b : Byte) (s : State) : (emit b s).readDataReady = s.readDataReady := rfl
@[simp] theorem emit_writeDataComplete (b : Byte) (s : State) : (emit b s).writeDataComplete = s.writeDataComplete := rfl
@[simp] theorem emit_readRegError (b : Byte) (s : State) : (emit b s).readRegError = s.readRegError := rfl
@[simp] theorem emit_writeRegError (b : Byte) (s : State) : (emit b s).writeRegError = s.writeRegError := rfl
@[simp] theorem emit_rxOverRunError (b : Byte) (s : State) : (emit b s).rxOverRunError = s.rxOverRunError := rfl
@[simp] theorem emit_txUnderRunError (b : Byte) (s : State) : (emit b s).txUnderRunError = s.txUnderRunError := rfl
@[simp] theorem emit_disp (b : Byte) (s : State) : (emit b s).disp = s.disp := rfl
@[simp] theorem emit_regCalls (b : Byte) (s : State) : (emit b s).regCalls = s.regCalls := rfl
@[simp] theorem emit_emitted (b : Byte) (s : State) : (emit b s).emitted = s.emitted ++ [b] := rfl
@[simp] theorem emit_events (b : Byte) (s : State) : (emit b s).events = s.events := rfl

/-! `clearStatusFlags` (R151) -/

@[simp] theorem clearStatusFlags_cfg (s : State) : (clearStatusFlags s).cfg = s.cfg := rfl
@[simp] theorem clearStatusFlags_state (s : State) : (clearStatusFlags s).state = s.state := rfl
@[simp] theorem clearStatusFlags_queued (s : State) : (clearStatusFlags s).queued = s.queued := rfl
@[simp] theorem clearStatusFlags_direction (s : State) : (clearStatusFlags s).direction = s.direction := rfl
@[simp] theorem clearStatusFlags_lenHi (s : State) : (clearStatusFlags s).lenHi = s.lenHi := rfl
@[simp] theorem clearStatusFlags_length (s : State) : (clearStatusFlags s).length = s.length := rfl
@[simp] theorem clearStatusFlags_addrHi (s : State) : (clearStatusFlags s).addrHi = s.addrHi := rfl
@[simp] theorem clearStatusFlags_address (s : State) : (clearStatusFlags s).address = s.address := rfl
@[simp] theorem clearStatusFlags_wrCursor (s : State) : (clearStatusFlags s).wrCursor = s.wrCursor := rfl
@[simp] theorem clearStatusFlags_rdCursor (s : State) : (clearStatusFlags s).rdCursor = s.rdCursor := rfl
@[simp] theorem clearStatusFlags_txCursor (s : State) : (clearStatusFlags s).txCursor = s.txCursor := rfl
@[simp] theorem clearStatusFlags_txMode (s : State) : (clearStatusFlags s).txMode = s.txMode := rfl
@[simp] theorem clearStatusFlags_statusByte (s : State) : (clearStatusFlags s).statusByte = s.statusByte := rfl
@[simp] theorem clearStatusFlags_payload (s : State) : (clearStatusFlags s).payload = s.payload := rfl
@[simp] theorem clearStatusFlags_readDataReq (s : State) : (clearStatusFlags s).readDataReq = s.readDataReq := rfl
@[simp] theorem clearStatusFlags_writeDataReq (s : State) : (clearStatusFlags s).writeDataReq = s.writeDataReq := rfl
@[simp] theorem clearStatusFlags_readDataReady (s : State) : (clearStatusFlags s).readDataReady = false := rfl
@[simp] theorem clearStatusFlags_writeDataComplete (s : State) : (clearStatusFlags s).writeDataComplete = false := rfl
@[simp] theorem clearStatusFlags_readRegError (s : State) : (clearStatusFlags s).readRegError = false := rfl
@[simp] theorem clearStatusFlags_writeRegError (s : State) : (clearStatusFlags s).writeRegError = false := rfl
@[simp] theorem clearStatusFlags_rxOverRunError (s : State) : (clearStatusFlags s).rxOverRunError = false := rfl
@[simp] theorem clearStatusFlags_txUnderRunError (s : State) : (clearStatusFlags s).txUnderRunError = false := rfl
@[simp] theorem clearStatusFlags_disp (s : State) : (clearStatusFlags s).disp = s.disp := rfl
@[simp] theorem clearStatusFlags_regCalls (s : State) : (clearStatusFlags s).regCalls = s.regCalls := rfl
@[simp] theorem clearStatusFlags_emitted (s : State) : (clearStatusFlags s).emitted = s.emitted := rfl
@[simp] theorem clearStatusFlags_events (s : State) : (clearStatusFlags s).events = s.events := rfl

/-! `captureErrors` (R184, R185) -/

@[simp] theorem captureErrors_cfg (ovr udr : Bool) (s : State) : (captureErrors ovr udr s).cfg = s.cfg := rfl
@[simp] theorem captureErrors_state (ovr udr : Bool) (s : State) : (captureErrors ovr udr s).state = s.state := rfl
@[simp] theorem captureErrors_queued (ovr udr : Bool) (s : State) : (captureErrors ovr udr s).queued = s.queued := rfl
@[simp] theorem captureErrors_direction (ovr udr : Bool) (s : State) : (captureErrors ovr udr s).direction = s.direction := rfl
@[simp] theorem captureErrors_lenHi (ovr udr : Bool) (s : State) : (captureErrors ovr udr s).lenHi = s.lenHi := rfl
@[simp] theorem captureErrors_length (ovr udr : Bool) (s : State) : (captureErrors ovr udr s).length = s.length := rfl
@[simp] theorem captureErrors_addrHi (ovr udr : Bool) (s : State) : (captureErrors ovr udr s).addrHi = s.addrHi := rfl
@[simp] theorem captureErrors_address (ovr udr : Bool) (s : State) : (captureErrors ovr udr s).address = s.address := rfl
@[simp] theorem captureErrors_wrCursor (ovr udr : Bool) (s : State) : (captureErrors ovr udr s).wrCursor = s.wrCursor := rfl
@[simp] theorem captureErrors_rdCursor (ovr udr : Bool) (s : State) : (captureErrors ovr udr s).rdCursor = s.rdCursor := rfl
@[simp] theorem captureErrors_txCursor (ovr udr : Bool) (s : State) : (captureErrors ovr udr s).txCursor = s.txCursor := rfl
@[simp] theorem captureErrors_txMode (ovr udr : Bool) (s : State) : (captureErrors ovr udr s).txMode = s.txMode := rfl
@[simp] theorem captureErrors_statusByte (ovr udr : Bool) (s : State) : (captureErrors ovr udr s).statusByte = s.statusByte := rfl
@[simp] theorem captureErrors_payload (ovr udr : Bool) (s : State) : (captureErrors ovr udr s).payload = s.payload := rfl
@[simp] theorem captureErrors_readDataReq (ovr udr : Bool) (s : State) : (captureErrors ovr udr s).readDataReq = s.readDataReq := rfl
@[simp] theorem captureErrors_writeDataReq (ovr udr : Bool) (s : State) : (captureErrors ovr udr s).writeDataReq = s.writeDataReq := rfl
@[simp] theorem captureErrors_readDataReady (ovr udr : Bool) (s : State) : (captureErrors ovr udr s).readDataReady = s.readDataReady := rfl
@[simp] theorem captureErrors_writeDataComplete (ovr udr : Bool) (s : State) : (captureErrors ovr udr s).writeDataComplete = s.writeDataComplete := rfl
@[simp] theorem captureErrors_readRegError (ovr udr : Bool) (s : State) : (captureErrors ovr udr s).readRegError = s.readRegError := rfl
@[simp] theorem captureErrors_writeRegError (ovr udr : Bool) (s : State) : (captureErrors ovr udr s).writeRegError = s.writeRegError := rfl
@[simp] theorem captureErrors_rxOverRunError (ovr udr : Bool) (s : State) : (captureErrors ovr udr s).rxOverRunError = (s.rxOverRunError || ovr) := rfl
@[simp] theorem captureErrors_txUnderRunError (ovr udr : Bool) (s : State) : (captureErrors ovr udr s).txUnderRunError = (s.txUnderRunError || udr) := rfl
@[simp] theorem captureErrors_disp (ovr udr : Bool) (s : State) : (captureErrors ovr udr s).disp = s.disp := rfl
@[simp] theorem captureErrors_regCalls (ovr udr : Bool) (s : State) : (captureErrors ovr udr s).regCalls = s.regCalls := rfl
@[simp] theorem captureErrors_emitted (ovr udr : Bool) (s : State) : (captureErrors ovr udr s).emitted = s.emitted := rfl
@[simp] theorem captureErrors_events (ovr udr : Bool) (s : State) : (captureErrors ovr udr s).events = s.events := rfl

/-! `startInit` (R112, R113) -/

@[simp] theorem startInit_cfg (d : Bool) (s : State) : (startInit d s).cfg = s.cfg := rfl
@[simp] theorem startInit_state (d : Bool) (s : State) : (startInit d s).state = .awaitSync := rfl
@[simp] theorem startInit_queued (d : Bool) (s : State) : (startInit d s).queued = .awaitLenLow := rfl
@[simp] theorem startInit_direction (d : Bool) (s : State) : (startInit d s).direction = d := rfl
@[simp] theorem startInit_lenHi (d : Bool) (s : State) : (startInit d s).lenHi = s.lenHi := rfl
@[simp] theorem startInit_length (d : Bool) (s : State) : (startInit d s).length = s.length := rfl
@[simp] theorem startInit_addrHi (d : Bool) (s : State) : (startInit d s).addrHi = s.addrHi := rfl
@[simp] theorem startInit_address (d : Bool) (s : State) : (startInit d s).address = s.address := rfl
@[simp] theorem startInit_wrCursor (d : Bool) (s : State) : (startInit d s).wrCursor = s.wrCursor := rfl
@[simp] theorem startInit_rdCursor (d : Bool) (s : State) : (startInit d s).rdCursor = s.rdCursor := rfl
@[simp] theorem startInit_txCursor (d : Bool) (s : State) : (startInit d s).txCursor = s.txCursor := rfl
@[simp] theorem startInit_txMode (d : Bool) (s : State) : (startInit d s).txMode = s.txMode := rfl
@[simp] theorem startInit_statusByte (d : Bool) (s : State) : (startInit d s).statusByte = s.statusByte := rfl
@[simp] theorem startInit_payload (d : Bool) (s : State) : (startInit d s).payload = s.payload := rfl
@[simp] theorem startInit_readDataReq (d : Bool) (s : State) : (startInit d s).readDataReq = s.readDataReq := rfl
@[simp] theorem startInit_writeDataReq (d : Bool) (s : State) : (startInit d s).writeDataReq = s.writeDataReq := rfl
@[simp] theorem startInit_readDataReady (d : Bool) (s : State) : (startInit d s).readDataReady = s.readDataReady := rfl
@[simp] theorem startInit_writeDataComplete (d : Bool) (s : State) : (startInit d s).writeDataComplete = s.writeDataComplete := rfl
@[simp] theorem startInit_readRegError (d : Bool) (s : State) : (startInit d s).readRegError = s.readRegError := rfl
@[simp] theorem startInit_writeRegError (d : Bool) (s : State) : (startInit d s).writeRegError = s.writeRegError := rfl
@[simp] theorem startInit_rxOverRunError (d : Bool) (s : State) : (startInit d s).rxOverRunError = s.rxOverRunError := rfl
@[simp] theorem startInit_txUnderRunError (d : Bool) (s : State) : (startInit d s).txUnderRunError = s.txUnderRunError := rfl
@[simp] theorem startInit_disp (d : Bool) (s : State) : (startInit d s).disp = s.disp := rfl
@[simp] theorem startInit_regCalls (d : Bool) (s : State) : (startInit d s).regCalls = s.regCalls := rfl
@[simp] theorem startInit_emitted (d : Bool) (s : State) : (startInit d s).emitted = s.emitted := rfl
@[simp] theorem startInit_events (d : Bool) (s : State) : (startInit d s).events = s.events := rfl

/-! `acquireAddrHi` (R119) -/

@[simp] theorem acquireAddrHi_cfg (b : Byte) (s : State) : (acquireAddrHi b s).cfg = s.cfg := rfl
@[simp] theorem acquireAddrHi_state (b : Byte) (s : State) : (acquireAddrHi b s).state = .awaitAddrLo := rfl
@[simp] theorem acquireAddrHi_queued (b : Byte) (s : State) : (acquireAddrHi b s).queued = s.queued := rfl
@[simp] theorem acquireAddrHi_direction (b : Byte) (s : State) : (acquireAddrHi b s).direction = s.direction := rfl
@[simp] theorem acquireAddrHi_lenHi (b : Byte) (s : State) : (acquireAddrHi b s).lenHi = s.lenHi := rfl
@[simp] theorem acquireAddrHi_length (b : Byte) (s : State) : (acquireAddrHi b s).length = s.length := rfl
@[simp] theorem acquireAddrHi_addrHi (b : Byte) (s : State) : (acquireAddrHi b s).addrHi = b := rfl
@[simp] theorem acquireAddrHi_address (b : Byte) (s : State) : (acquireAddrHi b s).address = s.address := rfl
@[simp] theorem acquireAddrHi_wrCursor (b : Byte) (s : State) : (acquireAddrHi b s).wrCursor = s.wrCursor := rfl
@[simp] theorem acquireAddrHi_rdCursor (b : Byte) (s : State) : (acquireAddrHi b s).rdCursor = s.rdCursor := rfl
@[simp] theorem acquireAddrHi_txCursor (b : Byte) (s : State) : (acquireAddrHi b s).txCursor = s.txCursor := rfl
@[simp] theorem acquireAddrHi_txMode (b : Byte) (s : State) : (acquireAddrHi b s).txMode = s.txMode := rfl
@[simp] theorem acquireAddrHi_statusByte (b : Byte) (s : State) : (acquireAddrHi b s).statusByte = s.statusByte := rfl
@[simp] theorem acquireAddrHi_payload (b : Byte) (s : State) : (acquireAddrHi b s).payload = s.payload := rfl
@[simp] theorem acquireAddrHi_readDataReq (b : Byte) (s : State) : (acquireAddrHi b s).readDataReq = s.readDataReq := rfl
@[simp] theorem acquireAddrHi_writeDataReq (b : Byte) (s : State) : (acquireAddrHi b s).writeDataReq = s.writeDataReq := rfl
@[simp] theorem acquireAddrHi_readDataReady (b : Byte) (s : State) : (acquireAddrHi b s).readDataReady = s.readDataReady := rfl
@[simp] theorem acquireAddrHi_writeDataComplete (b : Byte) (s : State) : (acquireAddrHi b s).writeDataComplete = s.writeDataComplete := rfl
@[simp] theorem acquireAddrHi_readRegError (b : Byte) (s : State) : (acquireAddrHi b s).readRegError = s.readRegError := rfl
@[simp] theorem acquireAddrHi_writeRegError (b : Byte) (s : State) : (acquireAddrHi b s).writeRegError = s.writeRegError := rfl
@[simp] theorem acquireAddrHi_rxOverRunError (b : Byte) (s : State) : (acquireAddrHi b s).rxOverRunError = s.rxOverRunError := rfl
@[simp] theorem acquireAddrHi_txUnderRunError (b : Byte) (s : State) : (acquireAddrHi b s).txUnderRunError = s.txUnderRunError := rfl
@[simp] theorem acquireAddrHi_disp (b : Byte) (s : State) : (acquireAddrHi b s).disp = s.disp := rfl
@[simp] theorem acquireAddrHi_regCalls (b : Byte) (s : State) : (acquireAddrHi b s).regCalls = s.regCalls := rfl
@[simp] theorem acquireAddrHi_emitted (b : Byte) (s : State) : (acquireAddrHi b s).emitted = s.emitted := rfl
@[simp] theorem acquireAddrHi_events (b : Byte) (s : State) : (acquireAddrHi b s).events = s.events := rfl

/-! `acquireAddrLo` (R120) -/

@[simp] theorem acquireAddrLo_cfg (b : Byte) (s : State) : (acquireAddrLo b s).cfg = s.cfg := rfl
@[simp] theorem acquireAddrLo_state (b : Byte) (s : State) : (acquireAddrLo b s).state = .awaitControl := rfl
@[simp] theorem acquireAddrLo_queued (b : Byte) (s : State) : (acquireAddrLo b s).queued = s.queued := rfl
@[simp] theorem acquireAddrLo_direction (b : Byte) (s : State) : (acquireAddrLo b s).direction = s.direction := rfl
@[simp] theorem acquireAddrLo_lenHi (b : Byte) (s : State) : (acquireAddrLo b s).lenHi = s.lenHi := rfl
@[simp] theorem acquireAddrLo_length (b : Byte) (s : State) : (acquireAddrLo b s).length = s.length := rfl
@[simp] theorem acquireAddrLo_addrHi (b : Byte) (s : State) : (acquireAddrLo b s).addrHi = s.addrHi := rfl
@[simp] theorem acquireAddrLo_address (b : Byte) (s : State) : (acquireAddrLo b s).address = some (addressFrom s.addrHi b) := rfl
@[simp] theorem acquireAddrLo_wrCursor (b : Byte) (s : State) : (acquireAddrLo b s).wrCursor = s.wrCursor := rfl
@[simp] theorem acquireAddrLo_rdCursor (b : Byte) (s : State) : (acquireAddrLo b s).rdCursor = s.rdCursor := rfl
@[simp] theorem acquireAddrLo_txCursor (b : Byte) (s : State) : (acquireAddrLo b s).txCursor = s.txCursor := rfl
@[simp] theorem acquireAddrLo_txMode (b : Byte) (s : State) : (acquireAddrLo b s).txMode = s.txMode := rfl
@[simp] theorem acquireAddrLo_statusByte (b : Byte) (s : State) : (acquireAddrLo b s).statusByte = s.statusByte := rfl
@[simp] theorem acquireAddrLo_payload (b : Byte) (s : State) : (acquireAddrLo b s).payload = s.payload := rfl
@[simp] theorem acquireAddrLo_readDataReq (b : Byte) (s : State) : (acquireAddrLo b s).readDataReq = (s.readDataReq || s.direction) := rfl
@[simp] theorem acquireAddrLo_writeDataReq (b : Byte) (s : State) : (acquireAddrLo b s).writeDataReq = s.writeDataReq := rfl
@[simp] theorem acquireAddrLo_readDataReady (b : Byte) (s : State) : (acquireAddrLo b s).readDataReady = s.readDataReady := rfl
@[simp] theorem acquireAddrLo_writeDataComplete (b : Byte) (s : State) : (acquireAddrLo b s).writeDataComplete = s.writeDataComplete := rfl
@[simp] theorem acquireAddrLo_readRegError (b : Byte) (s : State) : (acquireAddrLo b s).readRegError = s.readRegError := rfl
@[simp] theorem acquireAddrLo_writeRegError (b : Byte) (s : State) : (acquireAddrLo b s).writeRegError = s.writeRegError := rfl
@[simp] theorem acquireAddrLo_rxOverRunError (b : Byte) (s : State) : (acquireAddrLo b s).rxOverRunError = s.rxOverRunError := rfl
@[simp] theorem acquireAddrLo_txUnderRunError (b : Byte) (s : State) : (acquireAddrLo b s).txUnderRunError = s.txUnderRunError := rfl
@[simp] theorem acquireAddrLo_disp (b : Byte) (s : State) : (acquireAddrLo b s).disp = s.disp := rfl
@[simp] theorem acquireAddrLo_regCalls (b : Byte) (s : State) : (acquireAddrLo b s).regCalls = s.regCalls := rfl
@[simp] theorem acquireAddrLo_emitted (b : Byte) (s : State) : (acquireAddrLo b s).emitted = s.emitted := rfl
@[simp] theorem acquireAddrLo_events (b : Byte) (s : State) : (acquireAddrLo b s).events = s.events := rfl

/-! `startRead` (R114) -/

@[simp] theorem startRead_cfg (s : State) : (startRead s).cfg = s.cfg := rfl
@[simp] theorem startRead_state (s : State) : (startRead s).state = .awaitSync := rfl
@[simp] theorem startRead_queued (s : State) : (startRead s).queued = .transferRead := rfl
@[simp] theorem startRead_direction (s : State) : (startRead s).direction = s.direction := rfl
@[simp] theorem startRead_lenHi (s : State) : (startRead s).lenHi = s.lenHi := rfl
@[simp] theorem startRead_length (s : State) : (startRead s).length = s.length := rfl
@[simp] theorem startRead_addrHi (s : State) : (startRead s).addrHi = s.addrHi := rfl
@[simp] theorem startRead_address (s : State) : (startRead s).address = s.address := rfl
@[simp] theorem startRead_wrCursor (s : State) : (startRead s).wrCursor = s.wrCursor := rfl
@[simp] theorem startRead_rdCursor (s : State) : (startRead s).rdCursor = 0 := rfl
@[simp] theorem startRead_txCursor (s : State) : (startRead s).txCursor = 0 := rfl
@[simp] theorem startRead_txMode (s : State) : (startRead s).txMode = .data := rfl
@[simp] theorem startRead_statusByte (s : State) : (startRead s).statusByte = s.statusByte := rfl
@[simp] theorem startRead_payload (s : State) : (startRead s).payload = s.payload := rfl
@[simp] theorem startRead_readDataReq (s : State) : (startRead s).readDataReq = s.readDataReq := rfl
@[simp] theorem startRead_writeDataReq (s : State) : (startRead s).writeDataReq = s.writeDataReq := rfl
@[simp] theorem startRead_readDataReady (s : State) : (startRead s).readDataReady = s.readDataReady := rfl
@[simp] theorem startRead_writeDataComplete (s : State) : (startRead s).writeDataComplete = s.writeDataComplete := rfl
@[simp] theorem startRead_readRegError (s : State) : (startRead s).readRegError = s.readRegError := rfl
@[simp] theorem startRead_writeRegError (s : State) : (startRead s).writeRegError = s.writeRegError := rfl
@[simp] theorem startRead_rxOverRunError (s : State) : (startRead s).rxOverRunError = s.rxOverRunError := rfl
@[simp] theorem startRead_txUnderRunError (s : State) : (startRead s).txUnderRunError = s.txUnderRunError := rfl
@[simp] theorem startRead_disp (s : State) : (startRead s).disp = s.disp := rfl
@[simp] theorem startRead_regCalls (s : State) : (startRead s).regCalls = s.regCalls := rfl
@[simp] theorem startRead_emitted (s : State) : (startRead s).emitted = s.emitted := rfl
@[simp] theorem startRead_events (s : State) : (startRead s).events = s.events := rfl

/-! `startWrite` (R115) -/

@[simp] theorem startWrite_cfg (s : State) : (startWrite s).cfg = s.cfg := rfl
@[simp] theorem startWrite_state (s : State) : (startWrite s).state = .awaitSync := rfl
@[simp] theorem startWrite_queued (s : State) : (startWrite s).queued = .transferWrite := rfl
@[simp] theorem startWrite_direction (s : State) : (startWrite s).direction = s.direction := rfl
@[simp] theorem startWrite_lenHi (s : State) : (startWrite s).lenHi = s.lenHi := rfl
@[simp] theorem startWrite_length (s : State) : (startWrite s).length = s.length := rfl
@[simp] theorem startWrite_addrHi (s : State) : (startWrite s).addrHi = s.addrHi := rfl
@[simp] theorem startWrite_address (s : State) : (startWrite s).address = s.address := rfl
@[simp] theorem startWrite_wrCursor (s : State) : (startWrite s).wrCursor = 0 := rfl
@[simp] theorem startWrite_rdCursor (s : State) : (startWrite s).rdCursor = s.rdCursor := rfl
@[simp] theorem startWrite_txCursor (s : State) : (startWrite s).txCursor = s.txCursor := rfl
@[simp] theorem startWrite_txMode (s : State) : (startWrite s).txMode = s.txMode := rfl
@[simp] theorem startWrite_statusByte (s : State) : (startWrite s).statusByte = s.statusByte := rfl
@[simp] theorem startWrite_payload (s : State) : (startWrite s).payload = s.payload := rfl
@[simp] theorem startWrite_readDataReq (s : State) : (startWrite s).readDataReq = s.readDataReq := rfl
@[simp] theorem startWrite_writeDataReq (s : State) : (startWrite s).writeDataReq = s.writeDataReq := rfl
@[simp] theorem startWrite_readDataReady (s : State) : (startWrite s).readDataReady = s.readDataReady := rfl
@[simp] theorem startWrite_writeDataComplete (s : State) : (startWrite s).writeDataComplete = s.writeDataComplete := rfl
@[simp] theorem startWrite_readRegError (s : State) : (startWrite s).readRegError = s.readRegError := rfl
@[simp] theorem startWrite_writeRegError (s : State) : (startWrite s).writeRegError = s.writeRegError := rfl
@[simp] theorem startWrite_rxOverRunError (s : State) : (startWrite s).rxOverRunError = s.rxOverRunError := rfl
@[simp] theorem startWrite_txUnderRunError (s : State) : (startWrite s).txUnderRunError = s.txUnderRunError := rfl
@[simp] theorem startWrite_disp (s : State) : (startWrite s).disp = s.disp := rfl
@[simp] theorem startWrite_regCalls (s : State) : (startWrite s).regCalls = s.regCalls := rfl
@[simp] theorem startWrite_emitted (s : State) : (startWrite s).emitted = s.emitted := rfl
@[simp] theorem startWrite_events (s : State) : (startWrite s).events = s.events := rfl

/-! `startStatus` (R116) -/

@[simp] theorem startStatus_cfg (s : State) : (startStatus s).cfg = s.cfg := rfl
@[simp] theorem startStatus_state (s : State) : (startStatus s).state = .awaitSync := rfl
@[simp] theorem startStatus_queued (s : State) : (startStatus s).queued = .awaitStatusSent := rfl
@[simp] theorem startStatus_direction (s : State) : (startStatus s).direction = s.direction := rfl
@[simp] theorem startStatus_lenHi (s : State) : (startStatus s).lenHi = s.lenHi := rfl
@[simp] theorem startStatus_length (s : State) : (startStatus s).length = s.length := rfl
@[simp] theorem startStatus_addrHi (s : State) : (startStatus s).addrHi = s.addrHi := rfl
@[simp] theorem startStatus_address (s : State) : (startStatus s).address = s.address := rfl
@[simp] theorem startStatus_wrCursor (s : State) : (startStatus s).wrCursor = s.wrCursor := rfl
@[simp] theorem startStatus_rdCursor (s : State) : (startStatus s).rdCursor = s.rdCursor := rfl
@[simp] theorem startStatus_txCursor (s : State) : (startStatus s).txCursor = s.txCursor := rfl
@[simp] theorem startStatus_txMode (s : State) : (startStatus s).txMode = .status := rfl
@[simp] theorem startStatus_statusByte (s : State) : (startStatus s).statusByte = statusMux s := rfl
@[simp] theorem startStatus_payload (s : State) : (startStatus s).payload = s.payload := rfl
@[simp] theorem startStatus_readDataReq (s : State) : (startStatus s).readDataReq = s.readDataReq := rfl
@[simp] theorem startStatus_writeDataReq (s : State) : (startStatus s).writeDataReq = s.writeDataReq := rfl
@[simp] theorem startStatus_readDataReady (s : State) : (startStatus s).readDataReady = false := rfl
@[simp] theorem startStatus_writeDataComplete (s : State) : (startStatus s).writeDataComplete = false := rfl
@[simp] theorem startStatus_readRegError (s : State) : (startStatus s).readRegError = false := rfl
@[simp] theorem startStatus_writeRegError (s : State) : (startStatus s).writeRegError = false := rfl
@[simp] theorem startStatus_rxOverRunError (s : State) : (startStatus s).rxOverRunError = false := rfl
@[simp] theorem startStatus_txUnderRunError (s : State) : (startStatus s).txUnderRunError = false := rfl
@[simp] theorem startStatus_disp (s : State) : (startStatus s).disp = s.disp := rfl
@[simp] theorem startStatus_regCalls (s : State) : (startStatus s).regCalls = s.regCalls := rfl
@[simp] theorem startStatus_emitted (s : State) : (startStatus s).emitted = s.emitted := rfl
@[simp] theorem startStatus_events (s : State) : (startStatus s).events = s.events := rfl

/-! `endStatus` (R123) -/

@[simp] theorem endStatus_cfg (s : State) : (endStatus s).cfg = s.cfg := rfl
@[simp] theorem endStatus_state (s : State) : (endStatus s).state = .awaitControl := rfl
@[simp] theorem endStatus_queued (s : State) : (endStatus s).queued = s.queued := rfl
@[simp] theorem endStatus_direction (s : State) : (endStatus s).direction = s.direction := rfl
@[simp] theorem endStatus_lenHi (s : State) : (endStatus s).lenHi = s.lenHi := rfl
@[simp] theorem endStatus_length (s : State) : (endStatus s).length = s.length := rfl
@[simp] theorem endStatus_addrHi (s : State) : (endStatus s).addrHi = s.addrHi := rfl
@[simp] theorem endStatus_address (s : State) : (endStatus s).address = s.address := rfl
@[simp] theorem endStatus_wrCursor (s : State) : (endStatus s).wrCursor = s.wrCursor := rfl
@[simp] theorem endStatus_rdCursor (s : State) : (endStatus s).rdCursor = s.rdCursor := rfl
@[simp] theorem endStatus_txCursor (s : State) : (endStatus s).txCursor = s.txCursor := rfl
@[simp] theorem endStatus_txMode (s : State) : (endStatus s).txMode = .idle := rfl
@[simp] theorem endStatus_statusByte (s : State) : (endStatus s).statusByte = s.statusByte := rfl
@[simp] theorem endStatus_payload (s : State) : (endStatus s).payload = s.payload := rfl
@[simp] theorem endStatus_readDataReq (s : State) : (endStatus s).readDataReq = s.readDataReq := rfl
@[simp] theorem endStatus_writeDataReq (s : State) : (endStatus s).writeDataReq = s.writeDataReq := rfl
@[simp] theorem endStatus_readDataReady (s : State) : (endStatus s).readDataReady = s.readDataReady := rfl
@[simp] theorem endStatus_writeDataComplete (s : State) : (endStatus s).writeDataComplete = s.writeDataComplete := rfl
@[simp] theorem endStatus_readRegError (s : State) : (endStatus s).readRegError = s.readRegError := rfl
@[simp] theorem endStatus_writeRegError (s : State) : (endStatus s).writeRegError = s.writeRegError := rfl
@[simp] theorem endStatus_rxOverRunError (s : State) : (endStatus s).rxOverRunError = s.rxOverRunError := rfl
@[simp] theorem endStatus_txUnderRunError (s : State) : (endStatus s).txUnderRunError = s.txUnderRunError := rfl
@[simp] theorem endStatus_disp (s : State) : (endStatus s).disp = s.disp := rfl
@[simp] theorem endStatus_regCalls (s : State) : (endStatus s).regCalls = s.regCalls := rfl
@[simp] theorem endStatus_emitted (s : State) : (endStatus s).emitted = s.emitted := rfl
@[simp] theorem endStatus_events (s : State) : (endStatus s).events = s.events := rfl

/-! `acceptSync` (R117) -/

@[simp] theorem acceptSync_cfg (low : Nibble) (s : State) : (acceptSync low s).cfg = s.cfg := rfl
@[simp] theorem acceptSync_state (low : Nibble) (s : State) : (acceptSync low s).state = s.queued.target := rfl
@[simp] theorem acceptSync_queued (low : Nibble) (s : State) : (acceptSync low s).queued = s.queued := rfl
@[simp] theorem acceptSync_direction (low : Nibble) (s : State) : (acceptSync low s).direction = s.direction := rfl
@[simp] theorem acceptSync_lenHi (low : Nibble) (s : State) : (acceptSync low s).lenHi = low := rfl
@[simp] theorem acceptSync_length (low : Nibble) (s : State) : (acceptSync low s).length = s.length := rfl
@[simp] theorem acceptSync_addrHi (low : Nibble) (s : State) : (acceptSync low s).addrHi = s.addrHi := rfl
@[simp] theorem acceptSync_address (low : Nibble) (s : State) : (acceptSync low s).address = s.address := rfl
@[simp] theorem acceptSync_wrCursor (low : Nibble) (s : State) : (acceptSync low s).wrCursor = s.wrCursor := rfl
@[simp] theorem acceptSync_rdCursor (low : Nibble) (s : State) : (acceptSync low s).rdCursor = s.rdCursor := rfl
@[simp] theorem acceptSync_txCursor (low : Nibble) (s : State) : (acceptSync low s).txCursor = s.txCursor := rfl
@[simp] theorem acceptSync_txMode (low : Nibble) (s : State) : (acceptSync low s).txMode = s.txMode := rfl
@[simp] theorem acceptSync_statusByte (low : Nibble) (s : State) : (acceptSync low s).statusByte = s.statusByte := rfl
@[simp] theorem acceptSync_payload (low : Nibble) (s : State) : (acceptSync low s).payload = s.payload := rfl
@[simp] theorem acceptSync_readDataReq (low : Nibble) (s : State) : (acceptSync low s).readDataReq = s.readDataReq := rfl
@[simp] theorem acceptSync_writeDataReq (low : Nibble) (s : State) : (acceptSync low s).writeDataReq = s.writeDataReq := rfl
@[simp] theorem acceptSync_readDataReady (low : Nibble) (s : State) : (acceptSync low s).readDataReady = s.readDataReady := rfl
@[simp] theorem acceptSync_writeDataComplete (low : Nibble) (s : State) : (acceptSync low s).writeDataComplete = s.writeDataComplete := rfl
@[simp] theorem acceptSync_readRegError (low : Nibble) (s : State) : (acceptSync low s).readRegError = s.readRegError := rfl
@[simp] theorem acceptSync_writeRegError (low : Nibble) (s : State) : (acceptSync low s).writeRegError = s.writeRegError := rfl
@[simp] theorem acceptSync_rxOverRunError (low : Nibble) (s : State) : (acceptSync low s).rxOverRunError = s.rxOverRunError := rfl
@[simp] theorem acceptSync_txUnderRunError (low : Nibble) (s : State) : (acceptSync low s).txUnderRunError = s.txUnderRunError := rfl
@[simp] theorem acceptSync_disp (low : Nibble) (s : State) : (acceptSync low s).disp = s.disp := rfl
@[simp] theorem acceptSync_regCalls (low : Nibble) (s : State) : (acceptSync low s).regCalls = s.regCalls := rfl
@[simp] theorem acceptSync_emitted (low : Nibble) (s : State) : (acceptSync low s).emitted = s.emitted := rfl
@[simp] theorem acceptSync_events (low : Nibble) (s : State) : (acceptSync low s).events = s.events := rfl

end Sys2Proof.Machine
end

