-- ==== Sys2Proof/Laws/Ops.lean ====
section
/-! SUPPORT. One lemma per shared operation that says once everything it can do; the provers cite these instead of
unfolding the operations. -/

namespace Sys2Proof.Machine

theorem andThen_eq_next {r : Result} {f : State → Result} {t : State} :
    andThen r f = .next t ↔ ∃ s, r = .next s ∧ f s = .next t := by
  cases r <;> simp [andThen]

theorem andThen_eq_fault {r : Result} {f : State → Result} {e : Fault} :
    andThen r f = .fault e ↔ r = .fault e ∨ ∃ s, r = .next s ∧ f s = .fault e := by
  cases r <;> simp [andThen]

theorem andThen_eq_refused {r : Result} {f : State → Result} {e : Refusal} :
    andThen r f = .refused e ↔ r = .refused e ∨ ∃ s, r = .next s ∧ f s = .refused e := by
  cases r <;> simp [andThen]

@[simp] theorem andThen_next (s : State) (f : State → Result) : andThen (.next s) f = f s := rfl

/-- Sequencing is associative. -/
theorem andThen_assoc (r : Result) (f g : State → Result) :
    andThen (andThen r f) g = andThen r fun s => andThen (f s) g := by
  cases r <;> rfl

theorem payloadStore_eq_some {i : Nat} {b : Byte} {s t : State} :
    payloadStore i b s = some t ↔
      i < s.cfg.maxFrameLen ∧ t = { s with payload := Memory.write s.payload i b } := by
  unfold payloadStore
  split <;> simp [*, eq_comm]

theorem payloadStore_eq_none {i : Nat} {b : Byte} {s : State} :
    payloadStore i b s = none ↔ s.cfg.maxFrameLen ≤ i := by
  unfold payloadStore
  split <;> simp <;> omega

theorem payloadLoad_eq_some {i : Nat} {b : Byte} {s : State} :
    payloadLoad i s = some b ↔ i < s.cfg.maxFrameLen ∧ b = Memory.read s.payload i := by
  unfold payloadLoad
  split <;> simp [*, eq_comm]

theorem payloadLoad_eq_none {i : Nat} {s : State} : payloadLoad i s = none ↔ s.cfg.maxFrameLen ≤ i := by
  unfold payloadLoad
  split <;> simp <;> omega

/-- R118: the length byte commits a legal candidate or abandons the frame. -/
theorem acquireLength_cases (b : Byte) (s : State) :
    (legalLength s.cfg (lengthCandidate s.lenHi b) ∧
      acquireLength b s =
        { s with length := some (lengthCandidate s.lenHi b), state := .awaitAddrHi }) ∨
    (¬ legalLength s.cfg (lengthCandidate s.lenHi b) ∧ acquireLength b s = abandonFrame s) := by
  unfold acquireLength lengthIsValid legalLength
  split
  · next h => simp at h; exact .inl ⟨⟨by omega, h.2⟩, rfl⟩
  · next h => simp at h; exact .inr ⟨fun g => absurd (h (by omega)) (by omega), rfl⟩

/-- R122: a byte of a read data phase. -/
theorem countRead_eq_next {s t : State} (h : countRead s = .next t) :
    ∃ len, s.length = some len ∧
      ((s.rdCursor + 1 = len ∧
          t = { s with rdCursor := s.rdCursor + 1, txMode := .idle, state := .awaitControl }) ∨
        (s.rdCursor + 1 ≠ len ∧ t = { s with rdCursor := s.rdCursor + 1 })) := by
  unfold countRead nextCursor at h
  split at h
  · cases h
  · next len e =>
    refine ⟨len, e, ?_⟩
    split at h
    · next c => cases h; exact .inl ⟨c, rfl⟩
    · next c => cases h; exact .inr ⟨c, rfl⟩

/-- R121: a byte of a write data phase. -/
theorem storeWrite_eq_next {b : Byte} {s t : State} (h : storeWrite b s = .next t) :
    ∃ len, s.length = some len ∧ s.wrCursor.toNat < s.cfg.maxFrameLen ∧
      ((s.wrCursor + 1 = len ∧
          t = { s with
            payload := Memory.write s.payload s.wrCursor.toNat b
            wrCursor := s.wrCursor + 1, writeDataReq := true, state := .awaitControl }) ∨
        (s.wrCursor + 1 ≠ len ∧
          t = { s with
            payload := Memory.write s.payload s.wrCursor.toNat b, wrCursor := s.wrCursor + 1 })) := by
  unfold storeWrite at h
  split at h
  · cases h
  · next len e =>
    split at h
    · cases h
    · next u eu =>
      obtain ⟨lt, rfl⟩ := payloadStore_eq_some.mp eu
      refine ⟨len, e, lt, ?_⟩
      unfold countWrite nextCursor at h
      split at h
      · next c => cases h; exact .inl ⟨c, rfl⟩
      · next c => cases h; exact .inr ⟨c, rfl⟩

/-- R117: the sync byte matches or abandons the frame. -/
theorem execSyncByte_cases (pattern low : Nibble) (s : State) :
    (pattern = s.cfg.sync2 ∧ execSyncByte pattern low s = .next (acceptSync low s)) ∨
    (pattern ≠ s.cfg.sync2 ∧ execSyncByte pattern low s = .next (abandonFrame s)) := by
  unfold execSyncByte
  split
  · next h => exact .inl ⟨h, rfl⟩
  · next h => exact .inr ⟨h, rfl⟩

/-- R160: the transmit step emits one byte and touches the transmit mode or the transmit cursor. -/
theorem transmit_eq_next {s t : State} (h : transmit s = .next t) :
    (s.txMode = .status ∧ t = { s with emitted := s.emitted ++ [s.statusByte], txMode := .idle }) ∨
    (s.txMode = .data ∧ s.txCursor.toNat < s.cfg.maxFrameLen ∧
      t = { s with
        emitted := s.emitted ++ [Memory.read s.payload s.txCursor.toNat]
        txCursor := nextTxCursor s.cfg s.txCursor }) ∨
    (s.txMode = .idle ∧ t = { s with emitted := s.emitted ++ [fillByte] }) := by
  unfold transmit at h
  split at h
  · next e => cases h; exact .inl ⟨e, rfl⟩
  · next e =>
    unfold transmitData at h
    split at h
    · cases h
    · next b eb =>
      obtain ⟨lt, rfl⟩ := payloadLoad_eq_some.mp eb
      cases h
      exact .inr (.inl ⟨e, lt, rfl⟩)
  · next e => cases h; exact .inr (.inr ⟨e, rfl⟩)

/-- R162: the transmit cursor stays in the buffer. -/
theorem nextTxCursor_lt {c : Cfg} (valid : c.Valid) {cursor : Word16}
    (lt : cursor.toNat < c.maxFrameLen) : (nextTxCursor c cursor).toNat < c.maxFrameLen := by
  unfold nextTxCursor
  have := valid.2
  split
  · simp; omega
  · rw [BitVec.toNat_add]; simp; omega

/-- A dispatcher's read of `length` and of `address` where they have a value. -/
theorem withLength_of_some {s : State} {len : Word16} (h : s.length = some len) (f : Word16 → Result) :
    withLength s f = f len := by
  unfold withLength
  rw [h]

theorem withAddress_of_some {s : State} {addr : Word16} (h : s.address = some addr)
    (f : Word16 → Result) : withAddress s f = f addr := by
  unfold withAddress
  rw [h]

/-- R174: a call of the collaborator's read is logged and its answer queued for the stores. -/
theorem callRegRead_eq_next {len addr : Word16} {answer : RegAnswer} {s t : State}
    (h : callRegRead len addr answer s = .next t) :
    answer.bytes.length = len.toNat ∧
      t = { s with
        regCalls := s.regCalls ++ [.read len addr], disp := afterStores 0 answer.bytes answer.failed } := by
  unfold callRegRead at h
  split at h
  · next e => cases h; exact ⟨e, rfl⟩
  · cases h

/-- R171: one store of the read branch. -/
theorem dispatcherStore_eq_next {index : Nat} {b : Byte} {rest : List Byte} {failed : Bool} {s t : State}
    (h : dispatcherStore index b rest failed s = .next t) :
    index < s.cfg.maxFrameLen ∧
      t = { s with
        payload := Memory.write s.payload index b, disp := afterStores (index + 1) rest failed } := by
  unfold dispatcherStore at h
  split at h
  · cases h
  · next u hu =>
    obtain ⟨lt, rfl⟩ := payloadStore_eq_some.mp hu
    cases h
    exact ⟨lt, rfl⟩

/-- R172: one load of the write branch. -/
theorem dispatcherLoad_eq_next {len addr : Word16} {got : List Byte} {s t : State}
    (h : dispatcherLoad len addr got s = .next t) :
    got.length < s.cfg.maxFrameLen ∧
      t = { s with disp := afterLoads len addr (got ++ [Memory.read s.payload got.length]) } := by
  unfold dispatcherLoad at h
  split at h
  · cases h
  · next b hb =>
    obtain ⟨lt, rfl⟩ := payloadLoad_eq_some.mp hb
    cases h
    exact ⟨lt, rfl⟩

/-- The capture of the error indications does not change what selects the next byte's format. -/
@[simp] theorem decodeMode_captureErrors (ovr udr : Bool) (s : State) :
    decodeMode (captureErrors ovr udr s) = decodeMode s := rfl

/-- R191: an invocation that answers a next state went through its three steps. -/
theorem invoke_eq_next {snap : Snapshot} {s t : State} (h : invoke snap s = .next t) :
    ∃ u, receiveIfPresent snap.rx (captureErrors snap.ovr snap.udr s) = .next u ∧
      transmitIfReady snap.txReady u = .next t :=
  andThen_eq_next.mp h

/-- A step without a pending event holds the state; with one it is that event. -/
theorem step_of_nil {s : State} (h : s.events = []) : step s = .next s := by
  simp [step, runNextEvent, h]

theorem step_of_cons {s : State} {e : Event} {rest : List Event} (h : s.events = e :: rest) :
    step s = runEvent e { s with events := rest } := by
  simp [step, runNextEvent, h]

/-- A list of events runs as its parts. -/
theorem runEvents_append (es fs : List Event) (s : State) :
    runEvents (es ++ fs) s = andThen (runEvents es s) (runEvents fs) := by
  induction es generalizing s with
  | nil => rfl
  | cons e es ih =>
    simp only [List.cons_append, runEvents, andThen_assoc]
    congr 1
    funext u
    exact ih u

end Sys2Proof.Machine
end

