-- ==== Sys2Proof/Laws/PerInstr.lean ====
section
/-! SUPPORT. Statements made for each instruction as syntax: 30_encoding.md R80, every instruction is one byte, and
`decode` reads that byte and leaves the rest of the list. -/

namespace Sys2Proof.Laws.OneByte

/-- The encoding of an instruction is one byte, and decoding it in any mode leaves what follows untouched. -/
def Statement (i : Instr) : Prop :=
  ∀ (c : Cfg) (m : DecodeMode) (rest : List Byte),
    (encode c i).length = 1 ∧
      decode c m (encode c i ++ rest) = .ok (decodeByte c m (encodeByte c i), rest)

theorem winit (byte : InitByte) : Statement (.winit byte) := fun _ _ _ => ⟨rfl, rfl⟩

theorem rinit (byte : InitByte) : Statement (.rinit byte) := fun _ _ _ => ⟨rfl, rfl⟩

theorem rdata (byte : DataByte) : Statement (.rdata byte) := fun _ _ _ => ⟨rfl, rfl⟩

theorem wdata (byte : DataByte) : Statement (.wdata byte) := fun _ _ _ => ⟨rfl, rfl⟩

theorem dataAccessNoLength (unused : Field2) : Statement (.dataAccessNoLength unused) :=
  fun _ _ _ => ⟨rfl, rfl⟩

theorem status (byte : PollByte) : Statement (.status byte) := fun _ _ _ => ⟨rfl, rfl⟩

theorem ignoredByte (high low : Nibble) : Statement (.ignoredByte high low) := fun _ _ _ => ⟨rfl, rfl⟩

theorem syncByte (pattern low : Nibble) : Statement (.syncByte pattern low) := fun _ _ _ => ⟨rfl, rfl⟩

end Sys2Proof.Laws.OneByte
end

