-- ==== Sys2Proof/Laws/Wire.lean ====
section
/-! SUPPORT. Runs of received bytes and runs of slots, byte by byte. -/

namespace Sys2Proof.Machine

/-- An invocation without an error indication captures nothing. -/
@[simp] theorem captureErrors_false (s : State) : captureErrors false false s = s := by simp [captureErrors]

theorem andThen_pure (r : Result) : andThen r (fun t => .next t) = r := by cases r <;> rfl

/-- The event that delivers a byte alone is the receive step. -/
theorem runEvent_rxEvent (b : Byte) (s : State) : runEvent (rxEvent b) s = receive b s := by
  show andThen (receive b (captureErrors false false s)) (fun t => .next t) = _
  rw [captureErrors_false, andThen_pure]

/-- The transmit-ready event alone is the transmit step. -/
theorem runEvent_txEvent (s : State) : runEvent txEvent s = transmit s := by
  show transmit (captureErrors false false s) = _
  rw [captureErrors_false]

@[simp] theorem runEvents_nil (s : State) : runEvents [] s = .next s := rfl

theorem runEvents_cons (e : Event) (es : List Event) (s : State) :
    runEvents (e :: es) s = andThen (runEvent e s) (runEvents es) := rfl

/-- A run of received bytes, first byte first. -/
theorem runEvents_receive_cons (b : Byte) (bytes : List Byte) (s : State) :
    runEvents (receiveEvents (b :: bytes)) s =
      andThen (receive b s) (runEvents (receiveEvents bytes)) := by
  rw [← runEvent_rxEvent]
  rfl

theorem runEvents_receive_append (before after : List Byte) (s : State) :
    runEvents (receiveEvents (before ++ after)) s =
      andThen (runEvents (receiveEvents before) s) (runEvents (receiveEvents after)) := by
  rw [← runEvents_append]
  simp [receiveEvents]

/-- A run of slots, first slot first: the transmit step, then the receive step. -/
theorem runSlots_cons (m : Byte) (rest : List Byte) (s : State) :
    runSlots (m :: rest) s = andThen (transmit s) fun t => andThen (receive m t) (runSlots rest) := by
  show runEvents (txEvent :: rxEvent m :: slotEvents rest) s = _
  rw [runEvents_cons, runEvent_txEvent]
  congr 1
  funext t
  rw [runEvents_cons, runEvent_rxEvent]
  rfl

theorem runSlots_append (before after : List Byte) (s : State) :
    runSlots (before ++ after) s = andThen (runSlots before s) (runSlots after) := by
  induction before generalizing s with
  | nil => rfl
  | cons m rest ih =>
    rw [List.cons_append, runSlots_cons, runSlots_cons, andThen_assoc]
    congr 1
    funext t
    rw [andThen_assoc]
    congr 1
    funext u
    exact ih u

end Sys2Proof.Machine
end

