-- ==== Sys2Proof/Laws/Transaction.lean ====
section
/-! SUPPORT. The pseudo-instructions of 30_encoding.md R96, one poll or one dispatcher call at a time. -/

namespace Sys2Proof.Machine

theorem returnedBytes_of_append {before after : State} {bytes : List Byte}
    (h : after.emitted = before.emitted ++ bytes) : returnedBytes before after = bytes := by
  simp [returnedBytes, h]

/-- What a master reads of a status frame whose second emitted byte is `b`. -/
@[simp] theorem frameData_status (filler b : Byte) (rest : List Byte) :
    frameData .status (filler :: b :: rest) = [b] := rfl

@[simp] theorem ScriptEnd.prepend_nil {σ : Type} (e : ScriptEnd σ) : e.prepend [] = e := by cases e <;> rfl

@[simp] theorem ScriptEnd.prepend_prepend {σ : Type} (xs ys : List Byte) (e : ScriptEnd σ) :
    (e.prepend ys).prepend xs = e.prepend (xs ++ ys) := by
  cases e <;> simp [ScriptEnd.prepend]

/-- A dispatcher call with no request pending changes nothing and calls nobody (43_dispatcher.md R170). -/
theorem dispatchWith_of_no_request {σ : Type} (C : Collaborator σ) (store : σ) {s : State}
    (read : s.readDataReq = false) (write : s.writeDataReq = false) :
    dispatchWith C store s = (.next s, store) := by
  simp [dispatchWith, readBranchWith, writeBranchWith, readBranch, writeBranch, read, write]

theorem dispatchTimes_of_no_request {σ : Type} (C : Collaborator σ) (n : Nat) (store : σ) {s : State}
    (read : s.readDataReq = false) (write : s.writeDataReq = false) :
    dispatchTimes C n store s = (.next s, store) := by
  induction n with
  | zero => rfl
  | succ n ih => simp only [dispatchTimes, dispatchWith_of_no_request C store read write, ih]

/-- A first dispatcher call that leaves no request pending is the last that does anything. -/
theorem dispatchTimes_succ {σ : Type} {C : Collaborator σ} (n : Nat) {store store' : σ} {s t : State}
    (call : dispatchWith C store s = (.next t, store'))
    (read : t.readDataReq = false) (write : t.writeDataReq = false) :
    dispatchTimes C (n + 1) store s = (.next t, store') := by
  simp only [dispatchTimes, call, dispatchTimes_of_no_request C n store' read write]

/-- A poll whose byte has the awaited bit ends the repetition. -/
theorem pollUntil_answered {σ : Type} {C : Collaborator σ} {flag fail : Fin 8} {n : Nat} {store store' : σ}
    {s t u : State} (calls : List Nat) (served : dispatchTimes C n store s = (.next t, store'))
    (polled : runSlots (frameBytes t.cfg .status) t = .next u) (bit : statusBitSet t u flag = true) :
    pollUntil C flag fail (n :: calls) store s = .answered (statusBitSet t u fail) calls u store' := by
  simp only [pollUntil, served, polled, bit, if_true]

/-- A poll whose byte lacks the awaited bit is repeated. -/
theorem pollUntil_repeated {σ : Type} {C : Collaborator σ} {flag fail : Fin 8} {n : Nat} {store store' : σ}
    {s t u : State} (calls : List Nat) (served : dispatchTimes C n store s = (.next t, store'))
    (polled : runSlots (frameBytes t.cfg .status) t = .next u) (bit : statusBitSet t u flag = false) :
    pollUntil C flag fail (n :: calls) store s = pollUntil C flag fail calls store' u := by
  simp only [pollUntil, served, polled, bit, Bool.false_eq_true, if_false]

end Sys2Proof.Machine
end

