-- ==== Sys2Proof/Tests/Slice0.lean ====
section
/-! SUPPORT. The model's own tests: the smoke test of WellFormed, words written out from 30_encoding.md, single steps
with the results 95_test_vectors.md gives (the vector's name stands in the comment), and for every obligation with
hypotheses a witness that meets them. -/

namespace Sys2Proof.Machine.Tests

/-! ## Small states -/

/-- A field of the next state of an answer, if it is one. -/
def after {α : Type} (field : State → α) (r : Result) : Option α := (nextState? r).map field

/-- Right after reset under `CFG_TINY`. -/
def fresh : State := { State.reset with cfg := Cfg.tiny }

/-- Between frames, after an INIT frame of 3 bytes at 0x1234 whose latch is `direction`; the buffer holds
`01 02 00 B3`. -/
def ready (direction : Bool) : State :=
  { fresh with
    direction := direction, length := some 3, address := some 0x1234
    payload := [(0, 0x01), (1, 0x02), (3, 0xB3)] }

/-- The state of the rows of 95_test_vectors.md section 2.3: an earlier length of 7. -/
def lengthState (maxFrameLen : Nat) (lenHi : Nibble) : State :=
  { State.reset with
    cfg := { Cfg.ref with maxFrameLen := maxFrameLen }, state := .awaitLenLow, length := some 7, lenHi := lenHi }

/-- All six status flags set. -/
def allFlags : State :=
  { ready true with
    readDataReady := true, writeDataComplete := true, rxOverRunError := true, txUnderRunError := true
    writeRegError := true, readRegError := true }

/-- An invocation with a byte and nothing else. -/
def got (b : Byte) : Event := rxEvent b

/-- The answer of a collaborator that succeeds with three bytes. -/
def threeBytes : RegAnswer := { failed := false, bytes := [0x5A, 0x00, 0x5C] }

/-! ## WellFormed: a term that passes and an ill-formed term for each check -/

theorem test_wellFormed_ignoredByte :
    (Instr.ignoredByte 0x3 0xC).wellFormed Cfg.ref = true ∧ (Instr.ignoredByte 0xA 0xC).wellFormed Cfg.ref = false := by
  decide

theorem test_wellFormed_frame_length_zero :
    (Frame.winit 0 0x1234).wellFormed Cfg.ref = false ∧ (Frame.rinit 0 0x1234).wellFormed Cfg.ref = false ∧
      (Frame.rdata 0).wellFormed Cfg.ref = false ∧ (Frame.wdata 0 []).wellFormed Cfg.ref = false := by decide

theorem test_wellFormed_frame_length_above_capacity :
    (Frame.winit 257 0).wellFormed Cfg.ref = false ∧ (Frame.rinit 5 0).wellFormed Cfg.tiny = false ∧
      (Frame.rdata 5).wellFormed Cfg.tiny = false := by decide

theorem test_wellFormed_frame_data_count :
    (Frame.wdata 2 [0xAA]).wellFormed Cfg.ref = false ∧ (Frame.wdata 1 [0xAA, 0xBB]).wellFormed Cfg.ref = false := by
  decide

theorem test_wellFormed_frames :
    (Frame.winit 256 0xFFFF).wellFormed Cfg.ref = true ∧ (Frame.rinit 1 0).wellFormed Cfg.ref = true ∧
      (Frame.wdata 2 [0xAA, 0xBB]).wellFormed Cfg.ref = true ∧ (Frame.rdata 4).wellFormed Cfg.tiny = true ∧
      Frame.status.wellFormed Cfg.tiny = true ∧ (Frame.raw []).wellFormed Cfg.tiny = true := by decide

/-- 00_scope.md R6, R8. -/
theorem test_cfg_valid :
    Cfg.ref.Valid ∧ Cfg.tiny.Valid ∧ Cfg.Valid { Cfg.ref with maxFrameLen := 4095 } ∧
      Cfg.Valid { Cfg.ref with maxFrameLen := 1 } ∧ Cfg.Valid { Cfg.ref with sync2 := 0xA } := by decide

theorem test_cfg_capacity_refused :
    ¬ Cfg.Valid { Cfg.ref with maxFrameLen := 0 } ∧ ¬ Cfg.Valid { Cfg.ref with maxFrameLen := 4096 } := by decide

theorem test_cfg_equal_codes_refused :
    ¬ Cfg.Valid { Cfg.ref with opcReadInit := 0 } ∧ ¬ Cfg.Valid { Cfg.ref with opcDataAccess := 1 } ∧
      ¬ Cfg.Valid { Cfg.ref with opcStatusRead := 2 } ∧ ¬ Cfg.Valid { Cfg.ref with opcStatusRead := 0 } := by decide

/-! ## Decoding: words written out bit by bit -/

/-- `SSSSxxOO` of WRITE_INIT: 1010, xx, 00 (30_encoding.md R81). -/
theorem test_decode_winit_control :
    decodeByte Cfg.ref ⟨.awaitControl, true, true⟩ 0b10100000 = .winit (.ctrl 0b00) ∧
      decodeByte Cfg.ref ⟨.awaitControl, true, false⟩ 0b10101100 = .winit (.ctrl 0b11) := by decide

/-- `SSSSxxOO` of READ_INIT: 1010, xx, 01. -/
theorem test_decode_rinit_control :
    decodeByte Cfg.ref ⟨.awaitControl, false, false⟩ 0b10100001 = .rinit (.ctrl 0b00) ∧
      decodeByte Cfg.ref ⟨.awaitControl, false, true⟩ 0b10100101 = .rinit (.ctrl 0b01) := by decide

/-- `SSSSxxOO` of DATA_ACCESS: 1010, xx, 10, read by `direction` and the committed length (R97). -/
theorem test_decode_dataAccess_control :
    decodeByte Cfg.ref ⟨.awaitControl, true, true⟩ 0b10101010 = .rdata (.ctrl 0b10) ∧
      decodeByte Cfg.ref ⟨.awaitControl, false, true⟩ 0b10100010 = .wdata (.ctrl 0b00) ∧
      decodeByte Cfg.ref ⟨.awaitControl, false, false⟩ 0b10100010 = .dataAccessNoLength 0b00 ∧
      decodeByte Cfg.ref ⟨.awaitControl, true, false⟩ 0b10100110 = .dataAccessNoLength 0b01 := by decide

/-- `SSSSxxOO` of STATUS_READ: 1010, xx, 11; V-C8. -/
theorem test_decode_status_control :
    decodeByte Cfg.ref ⟨.awaitControl, false, false⟩ 0b10100011 = .status (.ctrl 0b00) ∧
      decodeByte Cfg.ref ⟨.awaitControl, true, true⟩ 0b10101111 = .status (.ctrl 0b11) := by decide

/-- V-C5, V-C6: the high nibble is not 1010. -/
theorem test_decode_ignored_byte :
    decodeByte Cfg.ref ⟨.awaitControl, true, true⟩ 0b00111100 = .ignoredByte 0b0011 0b1100 ∧
      decodeByte Cfg.ref ⟨.awaitControl, true, true⟩ 0b01010000 = .ignoredByte 0b0101 0b0000 ∧
      decodeByte Cfg.ref ⟨.awaitControl, true, true⟩ 0b10110011 = .ignoredByte 0b1011 0b0011 := by decide

/-- `TTTTHHHH`: 0101, then `lenHi` (R82); another high nibble is read the same way, and refused by the rule. -/
theorem test_decode_sync_byte :
    decodeByte Cfg.ref ⟨.awaitSync, false, false⟩ 0b01011111 = .syncByte 0b0101 0b1111 ∧
      decodeByte Cfg.ref ⟨.awaitSync, true, true⟩ 0b10100001 = .syncByte 0b1010 0b0001 := by decide

/-- `LLLLLLLL`, `AAAAAAAA`, `aaaaaaaa` (R83, R84) belong to the row `direction` names. -/
theorem test_decode_init_bytes :
    decodeByte Cfg.ref ⟨.awaitLenLow, false, false⟩ 0b00111100 = .winit (.lenLow 0b00111100) ∧
      decodeByte Cfg.ref ⟨.awaitLenLow, true, false⟩ 0b00000010 = .rinit (.lenLow 0b00000010) ∧
      decodeByte Cfg.ref ⟨.awaitAddrHi, false, true⟩ 0b00010010 = .winit (.addrHi 0b00010010) ∧
      decodeByte Cfg.ref ⟨.awaitAddrHi, true, true⟩ 0b10100011 = .rinit (.addrHi 0b10100011) ∧
      decodeByte Cfg.ref ⟨.awaitAddrLo, false, true⟩ 0b00110100 = .winit (.addrLo 0b00110100) ∧
      decodeByte Cfg.ref ⟨.awaitAddrLo, true, true⟩ 0b11111111 = .rinit (.addrLo 0b11111111) := by decide

/-- Data and don't-care bytes (R85): a byte that looks like a control byte is none. -/
theorem test_decode_transfer_bytes :
    decodeByte Cfg.ref ⟨.transferWrite, false, true⟩ 0b10100011 = .wdata (.data 0b10100011) ∧
      decodeByte Cfg.ref ⟨.transferRead, true, true⟩ 0b10100000 = .rdata (.data 0b10100000) ∧
      decodeByte Cfg.ref ⟨.awaitStatusSent, true, true⟩ 0b01010101 = .status (.dontCare 0b01010101) := by decide

/-- The parametric case of 95_test_vectors.md section 2.1: other nibble, codes reversed. -/
theorem test_decode_other_codes :
    let c : Cfg :=
      { Cfg.ref with sync1 := 0x3, opcStatusRead := 0, opcDataAccess := 1, opcReadInit := 2, opcWriteInit := 3 }
    let m : DecodeMode := ⟨.awaitControl, true, true⟩
    decodeByte c m 0x30 = .status (.ctrl 0) ∧ decodeByte c m 0x31 = .rdata (.ctrl 0) ∧
      decodeByte c m 0x32 = .rinit (.ctrl 0) ∧ decodeByte c m 0x33 = .winit (.ctrl 0) ∧
      decodeByte c m 0xA0 = .ignoredByte 0xA 0x0 := by decide

/-- A byte list: one byte is one instruction, the empty list is rejected by name. -/
theorem test_decode_list :
    (match decode Cfg.ref ⟨.awaitControl, false, false⟩ [] with | .error .noByte => true | .ok _ => false) = true ∧
      (match decode Cfg.ref ⟨.awaitControl, false, false⟩ [0xA0, 0x50] with
        | .ok (i, rest) => decide (i = .winit (.ctrl 0) ∧ rest = [0x50])
        | .error _ => false) = true := by decide

/-- The words of spec/opcode_table.json as the host numbers them; the row sync_byte is read in `AWAIT_SYNC`, and the word
the three rows of DATA_ACCESS share as the row of the state after reset. -/
theorem test_decode_table_words :
    decodeTableWord 8 0xA0 = some (.winit (.ctrl 0)) ∧ decodeTableWord 40 0xA1 = some (.rinit (.ctrl 0)) ∧
      decodeTableWord 8 0xA2 = some (.dataAccessNoLength 0) ∧ decodeTableWord 8 0xA3 = some (.status (.ctrl 0)) ∧
      decodeTableWord 8 0x50 = some (.syncByte 5 0) ∧ decodeTableWord 8 0x00 = some (.ignoredByte 0 0) := by decide

/-- Right after reset a table word placed where the next step fetches runs as its instruction. -/
theorem test_fetch_runs_the_word :
    after (·.state) (step (State.reset.withFetchWord 8 0xA0)) = some .awaitSync ∧
      after (·.direction) (step (State.reset.withFetchWord 40 0x0050A1)) = some true ∧
      after (·.txMode) (step (State.reset.withFetchWord 8 0xA3)) = some .status ∧
      after (·.state) (step (State.reset.withFetchWord 8 0x5F)) = some .awaitLenLow ∧
      after (·.state) (step (State.reset.withFetchWord 8 0x00)) = some .awaitControl ∧
      faultMarker? (step (State.reset.withFetchWord 8 0xA2)) = some .dataAccessBeforeInit := by decide

/-! ## Encoding: the bytes of frames -/

/-- E1: `A0 50 02 12 34 A2 50 AA BB`. -/
theorem test_encode_write_frames :
    frameBytes Cfg.ref (.winit 2 0x1234) = [0xA0, 0x50, 0x02, 0x12, 0x34] ∧
      frameBytes Cfg.ref (.wdata 2 [0xAA, 0xBB]) = [0xA2, 0x50, 0xAA, 0xBB] := by decide

/-- E2, and a length with a high nibble. -/
theorem test_encode_read_frames :
    frameBytes Cfg.ref (.rinit 2 0x1234) = [0xA1, 0x50, 0x02, 0x12, 0x34] ∧
      frameBytes Cfg.ref (.rdata 2) = [0xA2, 0x50, 0x00, 0x00] ∧ frameBytes Cfg.ref .status = [0xA3, 0x50, 0x00] ∧
      frameBytes Cfg.ref (.rinit 256 0xFF00) = [0xA1, 0x51, 0x00, 0xFF, 0x00] := by decide

/-- 95_test_vectors.md section 2.2, equal nibbles: `WINIT 1, 0x0000` is `A0 A0 01 00 00`. -/
theorem test_encode_equal_nibbles :
    frameBytes { Cfg.ref with sync2 := 0xA } (.winit 1 0) = [0xA0, 0xA0, 0x01, 0x00, 0x00] := by decide

/-- 30_encoding.md R96, the expansion column. -/
theorem test_transactions :
    transactionSteps (.write 0x1234 [0xAA, 0xBB]) =
        [.frame (.winit 2 0x1234), .frame (.wdata 2 [0xAA, 0xBB]), .pollUntil 1 4] ∧
      transactionSteps (.read 0x1234 2) = [.frame (.rinit 2 0x1234), .pollUntil 0 5, .frame (.rdata 2)] ∧
      transactionSteps .poll = [.frame .status] := by decide

theorem test_wellFormed_transactions :
    (Transaction.write 0 []).wellFormed Cfg.tiny = false ∧ (Transaction.write 0 [1, 2, 3, 4, 5]).wellFormed Cfg.tiny = false ∧
      (Transaction.write 0 [1, 2, 3, 4]).wellFormed Cfg.tiny = true ∧ (Transaction.read 0 0).wellFormed Cfg.tiny = false ∧
      (Transaction.read 0 5).wellFormed Cfg.tiny = false ∧ (Transaction.read 0 4).wellFormed Cfg.tiny = true ∧
      Transaction.poll.wellFormed Cfg.tiny = true := by decide

/-! ## Control bytes (section 2.1) -/

/-- V-C1, V-C7. -/
theorem test_winit_control :
    nextState? (receive 0xA0 (ready true)) =
        some { ready true with direction := false, queued := .awaitLenLow, state := .awaitSync } ∧
      nextState? (receive 0xAC (ready true)) = nextState? (receive 0xA0 (ready true)) := by decide

/-- V-C2, V-C10: a pending request is not tested. -/
theorem test_rinit_control :
    nextState? (receive 0xA1 { ready false with readDataReq := true }) =
      some { ready false with
        readDataReq := true, direction := true, queued := .awaitLenLow, state := .awaitSync } := by decide

/-- V-C3, V-C11: the armed status byte is dropped. -/
theorem test_rdata_control :
    nextState? (receive 0xA2 { ready true with rdCursor := 2, txCursor := 3, wrCursor := 1, txMode := .status }) =
      some { ready true with wrCursor := 1, txMode := .data, queued := .transferRead, state := .awaitSync } := by
  decide

/-- V-C4. -/
theorem test_wdata_control :
    nextState? (receive 0xA2 { ready false with rdCursor := 2, txCursor := 3, wrCursor := 2 }) =
      some { ready false with rdCursor := 2, txCursor := 3, queued := .transferWrite, state := .awaitSync } := by
  decide

/-- V-C9: the DATA_ACCESS control byte before any length. -/
theorem test_dataAccessNoLength_faults :
    faultMarker? (receive 0xA2 fresh) = some .dataAccessBeforeInit ∧
      faultMarker? (receive 0xAE { fresh with direction := true }) = some .dataAccessBeforeInit := by decide

/-- V-C5: every listed byte changes nothing. -/
theorem test_ignored_bytes :
    ∀ b ∈ ([0x00, 0x0F, 0x50, 0x5A, 0x90, 0xB3, 0xFF, 0x3C] : List Byte),
      nextState? (receive b (ready true)) = some (ready true) := by decide

/-! ## Sync bytes (section 2.2) -/

/-- V-Y1, V-Y2, V-Y4, V-Y5, V-Y7: the low nibble is captured, the state is the queued one. -/
theorem test_sync_byte_accepts :
    let s := { ready false with state := .awaitSync, lenHi := 7 }
    nextState? (receive 0x5F s) = some { ready false with state := .awaitLenLow, lenHi := 15 } ∧
      nextState? (receive 0x53 { s with queued := .transferWrite }) =
        some { ready false with state := .transferWrite, queued := .transferWrite, lenHi := 3 } ∧
      after (·.state) (receive 0x50 { s with queued := .transferRead }) = some .transferRead ∧
      after (·.state) (receive 0x5C { s with queued := .awaitStatusSent }) = some .awaitStatusSent := by decide

/-- V-Y3, V-Y6: a mismatch changes `state` alone; an `A1` here starts nothing. -/
theorem test_sync_byte_abandons :
    let s := { ready true with state := .awaitSync, lenHi := 7, txMode := .data, queued := .transferRead }
    ∀ b ∈ ([0x00, 0xA1, 0x4F, 0x60, 0xFF] : List Byte),
      nextState? (receive b s) = some { s with state := .awaitControl } := by decide

/-! ## Length and address bytes (sections 2.3, 2.4) -/

/-- The committed length and the state after the length byte. -/
def lengthAfter (maxFrameLen : Nat) (lenHi : Nibble) (b : Byte) : Option (Option Word16 × DecState) :=
  after (fun t => (t.length, t.state)) (receive b (lengthState maxFrameLen lenHi))

/-- V-L2, V-L3, V-L4, V-L7, V-L8, V-L11, V-L13. -/
theorem test_length_committed :
    lengthAfter 256 0 0x01 = some (some 1, .awaitAddrHi) ∧ lengthAfter 256 0 0xFF = some (some 255, .awaitAddrHi) ∧
      lengthAfter 256 1 0x00 = some (some 256, .awaitAddrHi) ∧ lengthAfter 256 0 0x3C = some (some 60, .awaitAddrHi) ∧
      lengthAfter 4 0 0x04 = some (some 4, .awaitAddrHi) ∧ lengthAfter 4095 15 0xFF = some (some 4095, .awaitAddrHi) ∧
      lengthAfter 1 0 0x01 = some (some 1, .awaitAddrHi) := by decide

/-- V-L1, V-L5, V-L6, V-L9, V-L10, V-L12, V-L14: `length` stays 7. -/
theorem test_length_rejected :
    lengthAfter 256 0 0x00 = some (some 7, .awaitControl) ∧ lengthAfter 256 1 0x01 = some (some 7, .awaitControl) ∧
      lengthAfter 256 15 0xFF = some (some 7, .awaitControl) ∧ lengthAfter 4 0 0x05 = some (some 7, .awaitControl) ∧
      lengthAfter 4 1 0x00 = some (some 7, .awaitControl) ∧ lengthAfter 4095 0 0x00 = some (some 7, .awaitControl) ∧
      lengthAfter 1 0 0x02 = some (some 7, .awaitControl) := by decide

/-- V-A1, V-A5. -/
theorem test_address_high :
    nextState? (receive 0x12 { ready false with state := .awaitAddrHi, address := some 0x0007 }) =
        some { ready false with state := .awaitAddrLo, address := some 0x0007, addrHi := 0x12 } ∧
      after (·.addrHi) (receive 0xA3 { ready true with state := .awaitAddrHi }) = some 0xA3 := by decide

/-- V-A2, V-A3, V-A4. -/
theorem test_address_low :
    nextState? (receive 0x34 { ready false with state := .awaitAddrLo, addrHi := 0x12, address := none }) =
        some { ready false with addrHi := 0x12 } ∧
      nextState? (receive 0x34 { ready true with state := .awaitAddrLo, addrHi := 0x12, address := none }) =
        some { ready true with addrHi := 0x12, readDataReq := true } ∧
      after (fun t => (t.address, t.readDataReq))
          (receive 0xFF { ready true with state := .awaitAddrLo, addrHi := 0xFF, readDataReq := true }) =
        some (some 0xFFFF, true) := by decide

/-! ## Transfers (section 2.5) -/

/-- V-W2, V-W3. -/
theorem test_wdata_bytes :
    after (fun t => (t.state, t.wrCursor, t.writeDataReq, Memory.readList t.payload 0 4))
        (receive 0xAA { ready false with state := .transferWrite, length := some 2 }) =
      some (.transferWrite, 1, false, [0xAA, 0x02, 0x00, 0xB3]) ∧
    after (fun t => (t.state, t.wrCursor, t.writeDataReq, Memory.readList t.payload 0 4))
        (receive 0xBB { ready false with state := .transferWrite, length := some 2, wrCursor := 1 }) =
      some (.awaitControl, 2, true, [0x01, 0xBB, 0x00, 0xB3]) := by decide

/-- V-W4: the last index of the buffer; and writing 00 leaves nothing listed. -/
theorem test_wdata_last_index :
    after (fun t => (t.state, t.wrCursor, t.payload))
        (receive 0xA3 { State.reset with state := .transferWrite, length := some 256, wrCursor := 255 }) =
      some (.awaitControl, 256, [(255, 0xA3)]) ∧
    after (·.payload) (receive 0x00 { ready false with state := .transferWrite, wrCursor := 1 }) =
      some [(0, 0x01), (3, 0xB3)] := by decide

/-- V-R2, V-R3. -/
theorem test_rdata_bytes :
    let s := { ready true with state := .transferRead, length := some 2, txMode := .data, txCursor := 3 }
    nextState? (receive 0xA0 s) = some { s with rdCursor := 1 } ∧
      nextState? (receive 0xA0 { s with rdCursor := 1 }) =
        some { s with rdCursor := 2, txMode := .idle, state := .awaitControl } := by decide

/-- V-T1, V-T2. -/
theorem test_status_dont_care :
    let s := { ready true with state := .awaitStatusSent, statusByte := 0x3F }
    nextState? (receive 0xA2 s) = some { s with state := .awaitControl } ∧
      nextState? (receive 0xA2 { s with txMode := .status }) = some { s with state := .awaitControl } := by decide

/-! ## Status multiplexer (section 2.6) -/

/-- V-S0 to V-S8: one flag at a time, and pairs. -/
theorem test_status_mux :
    statusMux fresh = 0x00 ∧ statusMux { fresh with readDataReady := true } = 0x01 ∧
      statusMux { fresh with writeDataComplete := true } = 0x02 ∧ statusMux { fresh with rxOverRunError := true } = 0x04 ∧
      statusMux { fresh with txUnderRunError := true } = 0x08 ∧ statusMux { fresh with writeRegError := true } = 0x10 ∧
      statusMux { fresh with readRegError := true } = 0x20 ∧ statusMux allFlags = 0x3F ∧
      statusMux { fresh with readDataReq := true, writeDataReq := true } = 0x00 := by decide

/-- V-S6, V-S9: all six are cleared, the request flags are not. -/
theorem test_status_control :
    nextState? (receive 0xA3 { allFlags with readDataReq := true, writeDataReq := true }) =
      some { ready true with
        readDataReq := true, writeDataReq := true, statusByte := 0x3F, txMode := .status
        queued := .awaitStatusSent, state := .awaitSync } := by decide

/-! ## Transmit sequencer and invocations (sections 2.7, 2.8) -/

/-- V-X1, V-X2. -/
theorem test_transmit_idle_and_status :
    nextState? (transmit (ready true)) = some { ready true with emitted := [0x00] } ∧
      nextState? (transmit { ready true with txMode := .status, statusByte := 0x02 }) =
        some { ready true with statusByte := 0x02, emitted := [0x02] } := by decide

/-- V-X4, V-X6. -/
theorem test_transmit_data :
    let s := { ready true with txMode := .data }
    nextState? (transmit s) = some { s with txCursor := 1, emitted := [0x01] } ∧
      nextState? (transmit { s with txCursor := 3 }) = some { s with txCursor := 0, emitted := [0xB3] } := by decide

/-- V-X5, V-X8. -/
theorem test_transmit_data_wraps_at_capacity :
    after (fun t => (t.txCursor, t.emitted))
        (transmit { State.reset with txMode := .data, txCursor := 255, payload := [(255, 0x9C)] }) =
      some (0, [0x9C]) ∧
    after (fun t => (t.txCursor, t.emitted))
        (transmit { State.reset with
          cfg := { Cfg.ref with maxFrameLen := 1 }, txMode := .data, payload := [(0, 0x55)] }) =
      some (0, [0x55]) := by decide

/-- V-I2, V-I10, V-S10: errors are captured before the byte is decoded, the byte is emitted after. -/
theorem test_invocation_order :
    nextState? (invoke ⟨false, false, some 0xA3, true⟩ fresh) =
        some { fresh with queued := .awaitStatusSent, state := .awaitSync, emitted := [0x00] } ∧
      nextState? (invoke ⟨true, true, some 0xA3, true⟩ fresh) =
        some { fresh with
          queued := .awaitStatusSent, state := .awaitSync, statusByte := 0x0C, emitted := [0x0C] } := by decide

/-- V-I8, V-I9: the receive step comes first. -/
theorem test_invocation_pairs :
    let s := { ready true with
      state := .transferRead, length := some 2, rdCursor := 1, txMode := .data, txCursor := 3 }
    nextState? (invoke ⟨false, false, some 0x00, true⟩ s) =
        some { s with rdCursor := 2, txMode := .idle, state := .awaitControl, emitted := [0x00] } ∧
      after (fun t => (t.txMode, t.txCursor, t.emitted)) (invoke ⟨false, false, some 0xA2, true⟩ (ready true)) =
        some (.data, 1, [0x01]) := by decide

/-- V-I5, V-I6, V-I7. -/
theorem test_error_indications :
    nextState? (invoke ⟨true, false, none, false⟩ fresh) = some { fresh with rxOverRunError := true } ∧
      nextState? (invoke ⟨false, true, none, false⟩ fresh) = some { fresh with txUnderRunError := true } ∧
      nextState? (invoke ⟨false, false, none, false⟩ allFlags) = some allFlags := by decide

/-! ## Dispatcher (section 2.9) -/

/-- V-H1, V-H3. -/
theorem test_dispatch_write :
    nextState? (dispatchCall threeBytes threeBytes (ready true)) = some (ready true) ∧
      nextState? (dispatchCall threeBytes threeBytes { ready false with writeDataReq := true, writeRegError := true }) =
        some { ready false with
          writeDataComplete := true, regCalls := [.write 3 0x1234 [0x01, 0x02, 0x00]] } := by decide

/-- V-H2, V-H4, V-H6: an earlier error is overwritten, a new one is recorded and completes all the same. -/
theorem test_dispatch_read :
    nextState? (dispatchCall threeBytes threeBytes { ready true with readDataReq := true, readRegError := true }) =
        some { ready true with
          readDataReady := true, payload := [(0, 0x5A), (2, 0x5C), (3, 0xB3)], regCalls := [.read 3 0x1234] } ∧
      after (fun t => (t.readRegError, t.readDataReq, t.readDataReady))
          (dispatchCall { threeBytes with failed := true } threeBytes { ready true with readDataReq := true }) =
        some (true, false, true) := by decide

/-- V-H7: with both requests pending the read branch overwrites what the write branch then sends. -/
theorem test_dispatch_both :
    after (fun t => (t.regCalls, t.readDataReady, t.writeDataComplete))
        (dispatchCall threeBytes threeBytes { ready true with readDataReq := true, writeDataReq := true }) =
      some ([.read 3 0x1234, .write 3 0x1234 [0x5A, 0x00, 0x5C]], true, true) := by decide

/-- V-H8: a status byte decoded between two of the dispatcher's writes takes the flag set so far. -/
theorem test_dispatch_interrupted :
    let s := { ready true with readDataReq := true, disp := .writeReadError true }
    after (fun t => (t.readRegError, t.disp)) (runEvent (.main threeBytes) s) = some (true, .clearReadReq) ∧
      after (fun t => (t.statusByte, t.readRegError, t.disp))
          (runEvent (got 0xA3) { s with readRegError := true, disp := .setReadReady }) =
        some (0x20, false, .setReadReady) := by decide

/-- 43_dispatcher.md R175: the single accesses; an answer of another length than asked is refused. -/
theorem test_dispatch_accesses :
    let s := { ready true with readDataReq := true }
    after (·.disp) (dispatcherAccess threeBytes s) = some .readLength ∧
      after (·.disp) (dispatcherAccess threeBytes { s with disp := .readLength }) = some (.readAddress 3) ∧
      after (·.disp) (dispatcherAccess threeBytes { s with disp := .readAddress 3 }) = some (.regRead 3 0x1234) ∧
      nextState? (dispatcherAccess threeBytes { s with disp := .regRead 4 0x1234 }) = none := by decide

/-- R174: the pass-through store reads back what it was given, and keeps what lies beside it. -/
theorem test_pass_through :
    let store := (passThrough.regWrite [(0x1233, 0x99)] 2 0x1234 [0xAA, 0xBB]).2
    store = [(0x1233, 0x99), (0x1234, 0xAA), (0x1235, 0xBB)] ∧
      (passThrough.regRead store 3 0x1233).1 = { failed := false, bytes := [0x99, 0xAA, 0xBB] } := by decide

/-- R170 with R174: a dispatcher call served by the pass-through store. -/
theorem test_dispatch_with_store :
    (dispatchWith passThrough [] { ready false with writeDataReq := true }).2 = [(0x1234, 0x01), (0x1235, 0x02)] := by
  decide

/-! ## Reset and memory -/

/-- 10_state.md R47. -/
theorem test_reset :
    State.reset.state = .awaitControl ∧ State.reset.length = none ∧ State.reset.txMode = .idle ∧
      (State.resetWith Cfg.tiny [0xB0, 0xB1, 0xB2, 0xB3, 0xB4]).payload =
        [(0, 0xB0), (1, 0xB1), (2, 0xB2), (3, 0xB3)] := by decide

/-- The reset event in mid-frame (70_reset_and_hazards.md R210). -/
theorem test_reset_event :
    nextState? (step { allFlags with state := .transferRead, events := [.reset [0x07], got 0xA0] }) =
      some { fresh with payload := [(0, 0x07)], events := [got 0xA0] } := by decide

theorem test_memory_canonical :
    Memory.wf 4 (ready true).payload = true ∧ Memory.wf 4 [(1, 0x05), (0, 0x06)] = false ∧
      Memory.wf 4 [(1, 0x00)] = false ∧ Memory.wf 4 [(4, 0x01)] = false ∧ Memory.wf 4 [(1, 1), (1, 2)] = false := by
  decide

/-! ## Witnesses: states and operands that meet an obligation's hypotheses -/

/-- `DecodeOfEncode`: a mode for every form. -/
theorem test_witness_DecodeOfEncode :
    Cfg.tiny.Valid ∧
      DecodeMode.admits ⟨.awaitControl, true, true⟩ (.winit (.ctrl 3)) = true ∧
      DecodeMode.admits ⟨.awaitControl, false, false⟩ (.rinit (.ctrl 0)) = true ∧
      DecodeMode.admits ⟨.awaitLenLow, false, false⟩ (.winit (.lenLow 0xFF)) = true ∧
      DecodeMode.admits ⟨.awaitAddrHi, true, true⟩ (.rinit (.addrHi 0xA3)) = true ∧
      DecodeMode.admits ⟨.awaitAddrLo, true, true⟩ (.rinit (.addrLo 0x00)) = true ∧
      DecodeMode.admits ⟨.awaitControl, true, true⟩ (.rdata (.ctrl 1)) = true ∧
      DecodeMode.admits ⟨.transferRead, true, true⟩ (.rdata (.data 0)) = true ∧
      DecodeMode.admits ⟨.awaitControl, false, true⟩ (.wdata (.ctrl 2)) = true ∧
      DecodeMode.admits ⟨.transferWrite, false, true⟩ (.wdata (.data 0xA3)) = true ∧
      DecodeMode.admits ⟨.awaitControl, true, false⟩ (.dataAccessNoLength 2) = true ∧
      DecodeMode.admits ⟨.awaitControl, true, true⟩ (.status (.ctrl 3)) = true ∧
      DecodeMode.admits ⟨.awaitStatusSent, true, true⟩ (.status (.dontCare 0xFF)) = true ∧
      DecodeMode.admits ⟨.awaitControl, true, true⟩ (.ignoredByte 0xB 0x0) = true ∧
      (Instr.ignoredByte 0xB 0x0).wellFormed Cfg.tiny = true ∧
      DecodeMode.admits ⟨.awaitSync, true, true⟩ (.syncByte 0x5 0xF) = true := by decide

/-- `EncodeOfDecode`, `ResetSatisfiesInvariant`: a legal configuration, at both bounds of the capacity. -/
theorem test_witness_EncodeOfDecode :
    Cfg.Valid { Cfg.ref with maxFrameLen := 1 } ∧ Cfg.Valid { Cfg.ref with maxFrameLen := 4095 } := by decide

/-- `ControlByteSelectsOpcode`: every left side occurs. -/
theorem test_witness_ControlByteSelectsOpcode :
    Cfg.ref.Valid ∧
      decodeByte Cfg.ref ⟨.awaitControl, true, true⟩ 0xAC = .winit (.ctrl 3) ∧
      decodeByte Cfg.ref ⟨.awaitControl, true, true⟩ 0xA5 = .rinit (.ctrl 1) ∧
      decodeByte Cfg.ref ⟨.awaitControl, true, true⟩ 0xAE = .rdata (.ctrl 3) ∧
      decodeByte Cfg.ref ⟨.awaitControl, false, true⟩ 0xAE = .wdata (.ctrl 3) ∧
      decodeByte Cfg.ref ⟨.awaitControl, true, false⟩ 0xAE = .dataAccessNoLength 3 ∧
      decodeByte Cfg.ref ⟨.awaitControl, true, true⟩ 0xAF = .status (.ctrl 3) ∧
      decodeByte Cfg.ref ⟨.awaitControl, true, true⟩ 0x9F = .ignoredByte 9 15 := by decide

/-- `FollowingBytesDecodeByState`, and the states of the other statements about one form. -/
theorem test_witness_FollowingBytesDecodeByState :
    { fresh with state := .awaitSync }.state = .awaitSync ∧ { fresh with state := .awaitLenLow }.state = .awaitLenLow ∧
      { ready true with state := .awaitAddrHi }.state = .awaitAddrHi ∧
      { ready true with state := .awaitAddrLo }.state = .awaitAddrLo ∧
      { ready false with state := .transferWrite }.state = .transferWrite ∧
      { ready true with state := .transferRead }.state = .transferRead ∧
      { ready true with state := .awaitStatusSent }.state = .awaitStatusSent := by decide

/-- `InitControlByteStartsFrame`, `StatusControlReadsAndClears`, `AbandonedFrameKeepsControlEffects`, and, with the IDLE
mode, `StatusFrameReturnsStatus`, `SecondPollReturnsZero` and `PollReturnsStatusByte`. -/
theorem test_witness_InitControlByteStartsFrame :
    allFlags.cfg.Valid ∧ allFlags.state = .awaitControl ∧ allFlags.txMode = .idle ∧
      (0x00 : Byte).extractLsb' 4 4 ≠ allFlags.cfg.sync2 ∧ (0xA3 : Byte).extractLsb' 4 4 ≠ allFlags.cfg.sync2 := by
  decide

/-- `LengthByteCommitsOrAbandons`, `AddressHighByteIsHeld`, `AddressLowByteCommits`: both rows at the bounds of the
range; 0 and 257 fall under the second clause, 1 and 256 under the first. -/
theorem test_witness_LengthByteCommitsOrAbandons :
    nextState? (exec (.winit (.lenLow 0x01)) (lengthState 256 0)) =
        some { lengthState 256 0 with length := some 1, state := .awaitAddrHi } ∧
      nextState? (exec (.rinit (.lenLow 0x00)) (lengthState 256 1)) =
        some { lengthState 256 1 with length := some 256, state := .awaitAddrHi } ∧
      nextState? (exec (.rinit (.lenLow 0x00)) (lengthState 256 0)) =
        some { lengthState 256 0 with state := .awaitControl } ∧
      nextState? (exec (.winit (.lenLow 0x01)) (lengthState 256 1)) =
        some { lengthState 256 1 with state := .awaitControl } := by decide

/-- `AddressHighByteIsHeld`, `AddressLowByteCommits`, `StatusDontCareEndsFrame`: the clauses on the decoder's state. -/
theorem test_witness_AddressLowByteCommits :
    (exec (.winit (.addrLo 0xFF)) (ready false) = .next { ready false with address := some 0x00FF }) ∧
      (exec (.rinit (.addrLo 0xFF)) { ready true with addrHi := 0xFF } =
        .next { ready true with addrHi := 0xFF, address := some 0xFFFF, readDataReq := true }) := ⟨rfl, rfl⟩

/-- `ReadDataControlArmsSequencer`, `ReadFrameReturnsBuffer`. -/
theorem test_witness_ReadDataControlArmsSequencer :
    (ready true).cfg.Valid ∧ (ready true).state = .awaitControl ∧ (ready true).direction = true ∧
      (ready true).length = some 3 ∧ (ready true).txMode = .idle ∧ 1 ≤ (3 : Word16).toNat ∧
      (3 : Word16).toNat ≤ (ready true).cfg.maxFrameLen ∧
      ([0x00, 0xA0, 0xFF] : List Byte).length = (3 : Word16).toNat := by decide

/-- `WriteDataControlResetsCursor`, both clauses, and `WriteFrameFillsBuffer`. -/
theorem test_witness_WriteDataControlResetsCursor :
    (ready false).cfg.Valid ∧ (ready false).state = .awaitControl ∧ (ready false).direction = false ∧
      (ready false).length = some 3 ∧ fresh.cfg.Valid ∧ fresh.state = .awaitControl ∧ fresh.direction = false ∧
      fresh.length = none ∧ ([0xA3, 0x00, 0x5C] : List Byte).length = (3 : Word16).toNat := by decide

/-- `DataAccessWithoutLengthFaults`: with an error indication and a transmit request in the same snapshot. -/
theorem test_witness_DataAccessWithoutLengthFaults :
    let snap : Snapshot := ⟨true, true, some 0xAE, true⟩
    let s := { fresh with events := [.invoke snap] }
    s.cfg.Valid ∧ s.state = .awaitControl ∧ s.length = none ∧ s.events = .invoke snap :: [] ∧
      snap.rx = some (controlByte s.cfg s.cfg.opcDataAccess 3) := by decide

/-- `WriteDataByteIsStored`: the last index, where the length is reached, and one where it is not. -/
theorem test_witness_WriteDataByteIsStored :
    let s := { State.reset with length := some 256, wrCursor := 255 }
    s.length = some 256 ∧ s.wrCursor.toNat < s.cfg.maxFrameLen ∧ s.wrCursor + 1 = 256 ∧
      (ready false).length = some 3 ∧ (ready false).wrCursor.toNat < (ready false).cfg.maxFrameLen ∧
      (ready false).wrCursor + 1 ≠ 3 := by decide

/-- `ReadDataByteIsCounted`: both outcomes. -/
theorem test_witness_ReadDataByteIsCounted :
    let s := { ready true with rdCursor := 2 }
    s.length = some 3 ∧ s.rdCursor + 1 = 3 ∧ (ready true).length = some 3 ∧ (ready true).rdCursor + 1 ≠ 3 := by decide

/-- `IgnoredByteChangesNothing`: the neighbours of the sync nibble. -/
theorem test_witness_IgnoredByteChangesNothing :
    fresh.state = .awaitControl ∧ (0x9F : Byte).extractLsb' 4 4 ≠ fresh.cfg.sync1 ∧
      (0xB0 : Byte).extractLsb' 4 4 ≠ fresh.cfg.sync1 := by decide

/-- The frames: every form answers a next state somewhere. -/
theorem test_witness_frames :
    (∃ t, exec (.winit (.ctrl 3)) (ready true) = .next t) ∧ (∃ t, exec (.winit (.lenLow 4)) (ready true) = .next t) ∧
      (∃ t, exec (.rinit (.addrHi 4)) (ready true) = .next t) ∧
      (∃ t, exec (.rinit (.addrLo 4)) { ready true with readDataReq := true } = .next t) ∧
      (∃ t, exec (.rdata (.ctrl 0)) (ready true) = .next t) ∧ (∃ t, exec (.rdata (.data 9)) (ready true) = .next t) ∧
      (∃ t, exec (.wdata (.ctrl 0)) (ready false) = .next t) ∧
      (∃ t, exec (.wdata (.data 9)) { ready false with wrCursor := 2, writeDataReq := true } = .next t) ∧
      (∃ t, exec (.status (.ctrl 0)) allFlags = .next t) ∧ (∃ t, exec (.status (.dontCare 0)) allFlags = .next t) ∧
      (∃ t, exec (.syncByte 5 1) fresh = .next t) ∧ (∃ t, exec (.syncByte 6 1) fresh = .next t) ∧
      (∃ t, exec (.ignoredByte 6 1) fresh = .next t) ∧ Memory.wf (ready false).cfg.maxFrameLen (ready false).payload = true :=
  ⟨⟨_, rfl⟩, ⟨_, rfl⟩, ⟨_, rfl⟩, ⟨_, rfl⟩, ⟨_, rfl⟩, ⟨_, rfl⟩, ⟨_, rfl⟩, ⟨_, rfl⟩, ⟨_, rfl⟩, ⟨_, rfl⟩, ⟨_, rfl⟩,
    ⟨_, rfl⟩, ⟨_, rfl⟩, by decide⟩

/-- `StepRunsDecodedInstruction`, `ErrorIndicationsAreSticky`: each clause. -/
theorem test_witness_StepRunsDecodedInstruction :
    let withByte : Snapshot := ⟨true, false, some 0xA3, true⟩
    let without : Snapshot := ⟨true, false, none, false⟩
    let s := { ready true with events := [.invoke withByte] }
    let u := { ready true with events := [.invoke without] }
    (s.events = .invoke withByte :: [] ∧ withByte.rx = some 0xA3 ∧
      decode s.cfg (decodeMode s) [0xA3] = .ok (.status (.ctrl 0), []) ∧
      (Instr.status (.ctrl 0)).wellFormed s.cfg = true) ∧
    (u.events = .invoke without :: [] ∧ without.rx = none ∧ without.txReady = false) ∧ (ready true).events = [] :=
  ⟨⟨rfl, rfl, rfl, rfl⟩, ⟨rfl, rfl, rfl⟩, rfl⟩

/-- `TransmitInStatusAndIdleMode`, `TransmitInDataModeWraps`: the last index, where the cursor wraps, and the first. -/
theorem test_witness_TransmitInDataModeWraps :
    let s := { ready true with txMode := .data, txCursor := 3, events := [txEvent] }
    s.events = txEvent :: [] ∧ s.txMode = .data ∧ s.cfg.Valid ∧ s.txCursor.toNat < s.cfg.maxFrameLen ∧
      { s with txCursor := 0 }.txCursor.toNat < s.cfg.maxFrameLen ∧
      { ready true with txMode := .status, events := [txEvent] }.txMode = .status ∧
      { ready true with events := [txEvent] }.txMode = .idle := by decide

/-- `TransmitEmitsOneByte`: both clauses. -/
theorem test_witness_TransmitEmitsOneByte :
    (∃ u t, receiveIfPresent (some 0xA2) (captureErrors false true (ready true)) = .next u ∧
      invoke ⟨false, true, some 0xA2, true⟩ (ready true) = .next t) ∧
    ∃ u t, receiveIfPresent none (captureErrors true false (ready true)) = .next u ∧
      invoke ⟨true, false, none, false⟩ (ready true) = .next t :=
  ⟨⟨_, _, rfl, rfl⟩, ⟨_, _, rfl, rfl⟩⟩

/-! ### States that meet the invariant -/

/-- The schedule plays no part in the invariant. -/
theorem test_inv_events {s : State} (h : Inv s) (events : List Event) : Inv { s with events := events } :=
  ⟨h.cfgValid, h.lengthLegal, h.lengthCommitted, h.addressCommitted, h.writeInRange, h.readInRange, h.writeQueued,
    h.readQueued, h.txInRange, h.requestsServable, h.statusHighBits, h.payloadWf, h.dispInv⟩

/-- Between frames with a committed length and address, whatever is pending in `events`. -/
theorem test_inv_ready (direction : Bool) (events : List Event) : Inv { ready direction with events := events } := by
  apply test_inv_events
  cases direction <;>
  · constructor
    case lengthLegal => intro len h; cases h; unfold legalLength; decide
    case dispInv => trivial
    all_goals first | decide | (intro h; cases h)

/-- Before any INIT frame. -/
theorem test_inv_fresh (events : List Event) : Inv { fresh with events := events } := by
  apply test_inv_events
  constructor
  case lengthLegal => intro len h; cases h
  case dispInv => trivial
  all_goals first | decide | (intro h; cases h)

/-- Before the last data byte of a write of the largest length; `ReceiveFollowsTransitionTable`. -/
theorem test_inv_last_data_byte :
    Inv { ready false with state := .transferWrite, length := some 4, wrCursor := 3, writeDataReq := true } := by
  constructor
  case lengthLegal => intro len h; cases h; unfold legalLength; decide
  case dispInv => trivial
  case writeInRange => intro _; exact ⟨4, rfl, by decide⟩
  all_goals first | decide | (intro h; cases h)

/-- Both requests pending: no call in progress, or about to call the collaborator's read; the second clause of
`StepStopsExactlyWhen` and the hypotheses of `UninterruptedAccessesAreOneCall`. -/
theorem test_inv_pending (disp : DispPc) (h : disp = .idle ∨ disp = .regRead 3 0x1234) (events : List Event) :
    Inv { ready true with readDataReq := true, writeDataReq := true, disp := disp, events := events } := by
  apply test_inv_events (s := { ready true with readDataReq := true, writeDataReq := true, disp := disp })
  rcases h with rfl | rfl <;>
  · constructor
    case lengthLegal => intro len h; cases h; unfold legalLength; decide
    case dispInv => trivial
    all_goals first | decide | (intro h; cases h)

/-- `StepKeepsInvariant`, `ConfigurationIsFixed`, `InvocationKeepsDispatcherFlags`: a step from such a state. -/
theorem test_witness_StepKeepsInvariant :
    Inv { ready true with events := [got 0xA2] } ∧
      ∃ t, step { ready true with events := [got 0xA2] } = .next t :=
  ⟨test_inv_ready true _, ⟨_, rfl⟩⟩

/-- `StepStopsExactlyWhen`: the right side of each clause holds somewhere. -/
theorem test_witness_StepStopsExactlyWhen :
    (Inv { fresh with events := [got 0xA2] } ∧
      step { fresh with events := [got 0xA2] } = .fault .dataAccessBeforeInit) ∧
    (Inv { ready true with
        readDataReq := true, writeDataReq := true, disp := .regRead 3 0x1234
        events := [.main { failed := false, bytes := [] }] } ∧
      step { ready true with
          readDataReq := true, writeDataReq := true, disp := .regRead 3 0x1234
          events := [.main { failed := false, bytes := [] }] } =
        .refused (.answerNotOfLength 3 0)) :=
  ⟨⟨test_inv_fresh _, rfl⟩, ⟨test_inv_pending _ (.inr rfl) _, rfl⟩⟩

/-- `StateMovesOnlyOnReceivedByte`: a byte, and a reset, that move it. -/
theorem test_witness_StateMovesOnlyOnReceivedByte :
    (∃ t, step { fresh with events := [got 0xA0] } = .next t ∧ t.state ≠ .awaitControl) ∧
    ∃ t, step { ready true with state := .transferRead, events := [.reset []] } = .next t ∧
      t.state ≠ .transferRead :=
  ⟨⟨_, rfl, by decide⟩, ⟨_, rfl, by decide⟩⟩

/-- `FrameFieldsHaveOneWriter`: each field changes somewhere, between resets. -/
theorem test_witness_FrameFieldsHaveOneWriter :
    (∀ contents, got 0xA0 ≠ .reset contents) ∧
    (∃ t, step { ready true with events := [got 0xA0] } = .next t ∧ t.direction ≠ true) ∧
    (∃ t, step { lengthState 256 1 with events := [got 0x00] } = .next t ∧ t.length ≠ some 7) ∧
    ∃ t, step { ready true with state := .awaitAddrLo, events := [got 0xFF] } = .next t ∧
      t.address ≠ some 0x1234 :=
  ⟨(by intro c h; cases h), ⟨_, rfl, by decide⟩, ⟨_, rfl, by decide⟩, ⟨_, rfl, by decide⟩⟩

/-- `BufferHasTwoWriters`: each of the two writers, at an end of the buffer. -/
theorem test_witness_BufferHasTwoWriters :
    (∃ t, step { ready false with
        state := .transferWrite, length := some 4, wrCursor := 3, events := [got 0xFF] } = .next t ∧
      t.payload ≠ (ready false).payload) ∧
    ∃ t, step { ready true with disp := .storePayload 0 [0xFF] false, events := [.main threeBytes] } = .next t ∧
      t.payload ≠ (ready true).payload :=
  ⟨⟨_, rfl, by decide⟩, ⟨_, rfl, by decide⟩⟩

/-- `MainContextKeepsBlockRegisters`: each of the six flags changes somewhere, at its own place. -/
theorem test_witness_MainContextKeepsBlockRegisters :
    let s := { ready true with readDataReq := true, writeDataReq := true, events := [.main threeBytes] }
    after (·.readDataReq) (step { s with disp := .clearReadReq }) = some false ∧
      after (·.writeDataReq) (step { s with disp := .clearWriteReq }) = some false ∧
      after (·.readDataReady) (step { s with disp := .setReadReady }) = some true ∧
      after (·.writeDataComplete) (step { s with disp := .setWriteComplete }) = some true ∧
      after (·.readRegError) (step { s with disp := .writeReadError true }) = some true ∧
      after (·.writeRegError) (step { s with writeRegError := true, disp := .writeWriteError false }) = some false := by
  decide

/-- `InvocationKeepsDispatcherFlags`: each request set at the last byte of its frame; the two indications; a poll that
clears the six with both requests pending, an indication of its own snapshot included. -/
theorem test_witness_InvocationKeepsDispatcherFlags :
    after (·.readDataReq) (step { ready true with state := .awaitAddrLo, events := [got 0x00] }) = some true ∧
      after (·.writeDataReq)
          (step { ready false with state := .transferWrite, wrCursor := 2, events := [got 0xFF] }) = some true ∧
      after (fun t => (t.rxOverRunError, t.txUnderRunError))
          (step { ready true with events := [.invoke ⟨true, true, none, false⟩] }) = some (true, true) ∧
      after (fun t => (statusMux t, t.readDataReq, t.writeDataReq))
          (step { allFlags with
            readDataReq := true, writeDataReq := true, events := [.invoke ⟨true, true, some 0xA3, true⟩] }) =
        some (0x00, true, true) := by decide

/-- `ResetLeavesInitialValues`: the last index of the buffer, and a reset event. -/
theorem test_witness_ResetLeavesInitialValues :
    (3 : Nat) < ([1, 2, 3, 4] : List Byte).length ∧ 3 < Cfg.tiny.maxFrameLen ∧
      { allFlags with events := [.reset [1]] }.events = .reset [1] :: [] := by decide

/-- `StepsDeliverTheSchedule`: a byte, an access and a reset. -/
theorem test_witness_StepsDeliverTheSchedule :
    ∃ t, runEvents [got 0xA3, .main threeBytes, .reset [1], got 0xA1] (ready true) = .next t := ⟨_, rfl⟩

/-- `ReadBranchServesRequest`: the read alone pending, and both; an answer as long as the buffer. -/
theorem test_witness_ReadBranchServesRequest :
    let s := { ready true with length := some 4, readDataReq := true }
    let both := { s with writeDataReq := true }
    (s.readDataReq = true ∧ s.writeDataReq = false ∧ s.length = some 4 ∧ s.address = some 0x1234 ∧
      ([0x5A, 0x00, 0x5C, 0x5D] : List Byte).length = (4 : Word16).toNat) ∧
    both.readDataReq = true ∧ both.writeDataReq = true ∧ both.length = some 4 ∧ both.address = some 0x1234 ∧
      Memory.wf both.cfg.maxFrameLen both.payload = true ∧ (4 : Word16).toNat ≤ both.cfg.maxFrameLen := by decide

/-- `WriteBranchServesRequest`. -/
theorem test_witness_WriteBranchServesRequest :
    let s := { ready false with writeDataReq := true }
    s.readDataReq = false ∧ s.writeDataReq = true ∧ s.length = some 3 ∧ s.address = some 0x1234 := by decide

/-- `UninterruptedAccessesAreOneCall`: both requests pending, and none. -/
theorem test_witness_UninterruptedAccessesAreOneCall :
    (Inv { ready true with readDataReq := true, writeDataReq := true, disp := .idle, events := [] } ∧
      ∀ len, (ready true).length = some len → threeBytes.bytes.length = len.toNat) ∧
    Inv { ready true with events := [] } ∧ (ready true).disp = .idle ∧ (ready true).readDataReq = false ∧
      (ready true).writeDataReq = false :=
  ⟨⟨test_inv_pending _ (.inl rfl) _, by intro len h; cases h; decide⟩, test_inv_ready true _, rfl, rfl, rfl⟩

/-- `PassThroughReadsBack`: a range that ends where the store ends. -/
theorem test_witness_PassThroughReadsBack :
    Memory.wf 0x10000 [(0xFFFE, 0x01)] = true ∧
      (0xFFFE : Word16).toNat + ([0xAA, 0xBB] : List Byte).length ≤ 0x10000 ∧
      ([0xAA, 0xBB] : List Byte).length = (2 : Word16).toNat := by decide

/-- `InitFrameCommits`, both clauses: a length at each end of the range. -/
theorem test_witness_InitFrameCommits :
    fresh.cfg.Valid ∧ fresh.state = .awaitControl ∧ fresh.txMode = .idle ∧ legalLength fresh.cfg 1 ∧
      legalLength fresh.cfg 4 :=
  ⟨by decide, rfl, rfl, ⟨by decide, by decide⟩, ⟨by decide, by decide⟩⟩

/-- `WriteFrameFillsBuffer`, both clauses. -/
theorem test_witness_WriteFrameFillsBuffer :
    (ready false).cfg.Valid ∧ (ready false).state = .awaitControl ∧ (ready false).direction = false ∧
      (ready false).txMode = .idle ∧ (ready false).length = some 3 ∧ legalLength (ready false).cfg 3 ∧
      ([0xA3, 0x00, 0x5C] : List Byte).length = (3 : Word16).toNat :=
  ⟨by decide, rfl, rfl, rfl, rfl, ⟨by decide, by decide⟩, rfl⟩

/-- `WriteTransactionReachesCollaborator`, `ReadTransactionFillsBuffer`: from the state before any frame. -/
theorem test_witness_WriteTransactionReachesCollaborator :
    Inv { fresh with events := [] } ∧ fresh.state = .awaitControl ∧ fresh.readDataReq = false ∧
      fresh.writeDataReq = false ∧ legalLength fresh.cfg 3 ∧
      ([0xA3, 0x00, 0x5C] : List Byte).length = (3 : Word16).toNat ∧
      threeBytes.bytes.length = (3 : Word16).toNat :=
  ⟨test_inv_fresh _, rfl, rfl, rfl, ⟨by decide, by decide⟩, rfl, rfl⟩

/-- `ReadFrameReturnsBuffer`: a length below the capacity and one that is it, where the leftover byte is the first. -/
theorem test_witness_ReadFrameReturnsBuffer :
    let s := { ready true with length := some 4 }
    (s.cfg.Valid ∧ s.state = .awaitControl ∧ s.txMode = .idle ∧ s.direction = true ∧ s.length = some 4 ∧
      1 ≤ (4 : Word16).toNat ∧ (4 : Word16).toNat = s.cfg.maxFrameLen ∧
      ([0x00, 0xA0, 0xFF, 0x50] : List Byte).length = (4 : Word16).toNat) ∧
    after (·.emitted) (runSlots [0xA2, 0x50, 0x00, 0xA0, 0xFF, 0x50] s) = some [0x00, 0x01, 0x02, 0x00, 0xB3, 0x01] := by
  decide

/-- `FlushReturnsToControl`: in the middle of the longest transfer, as many bytes as the buffer is long. -/
theorem test_witness_FlushReturnsToControl :
    Inv { ready false with state := .transferWrite, length := some 4, wrCursor := 3, writeDataReq := true } ∧
      max 3 (ready false).cfg.maxFrameLen ≤ ([0x00, 0xFF, 0x30, 0x60] : List Byte).length ∧
      ∀ b ∈ ([0x00, 0xFF, 0x30, 0x60] : List Byte),
        b.extractLsb' 4 4 ≠ (ready false).cfg.sync1 ∧ b.extractLsb' 4 4 ≠ (ready false).cfg.sync2 :=
  ⟨test_inv_last_data_byte, by decide, by decide⟩

/-- `SlaveBytesFollowEarlierSlots`: two runs that differ from the third slot on. -/
theorem test_witness_SlaveBytesFollowEarlierSlots :
    (∃ t, runSlots ([0xA3, 0x50] ++ [0x00]) (ready true) = .next t) ∧
      ∃ t, runSlots ([0xA3, 0x50] ++ [0xFF, 0xA2, 0x00]) (ready true) = .next t :=
  ⟨⟨_, rfl⟩, ⟨_, rfl⟩⟩

/-- `DontCareBytesLeaveNoTrace`: two read data frames that differ in every don't-care bit. -/
theorem test_witness_DontCareBytesLeaveNoTrace :
    Inv { ready true with events := [] } ∧ (ready true).state = .awaitControl ∧ (ready true).direction = true ∧
      (ready true).length.isSome = true ∧
      ([0xFF, 0xA0, 0x01] : List Byte).length = ((ready true).length.getD 0).toNat ∧
      (∃ t, runSlots [controlByte Cfg.tiny 2 0, nibblePair 0x5 0x0, 0x00, 0x00, 0x00] (ready true) = .next t) ∧
      ∃ t, runSlots [controlByte Cfg.tiny 2 3, nibblePair 0x5 0xF, 0xFF, 0xA0, 0x01] (ready true) = .next t :=
  ⟨test_inv_ready true _, rfl, rfl, rfl, rfl, ⟨_, rfl⟩, ⟨_, rfl⟩⟩

/-! ### The pseudo-instructions (30_encoding.md R96) -/

/-- The collaborator of 95_test_vectors.md P10: both operations fail and change nothing. -/
def failing : Collaborator Unit where
  regRead store len _ := ({ failed := true, bytes := List.replicate len.toNat 0xEE }, store)
  regWrite store _ _ _ := (true, store)

/-- How a script ended: whether it told failure, and its data. -/
def endedWith {σ : Type} : ScriptEnd σ → Option (Bool × List Byte)
  | .ended failed data _ _ => some (failed, data)
  | .waiting _ _ => none
  | .stopped _ => none

/-- P10: the transactions end at the poll that tells failure, the read without an RDATA frame. -/
theorem test_transaction_failure_ends :
    endedWith (runTransaction failing (.write 0xFFFF [0x77]) [1] () fresh) = some (true, []) ∧
      endedWith (runTransaction failing (.read 0xFFFF 1) [1] () fresh) = some (true, []) := by decide

/-- E2 (program P2): the bytes at positions 2 and 3 of the data frame. -/
theorem test_transaction_read :
    endedWith (runTransaction passThrough (.read 0x1234 2) [0, 1] [(0x1234, 0x01), (0x1235, 0x02)] fresh) =
      some (false, [0x01, 0x02]) := by decide

/-- R96 POLL, R150: the byte at position 2 is the status byte. -/
theorem test_transaction_poll :
    endedWith (runTransaction failing .poll [] () allFlags) = some (false, [0x3F]) := by decide

/-- R96: with no poll, or no dispatcher call before one, the bit does not come. -/
theorem test_transaction_waits :
    endedWith (runTransaction failing (.read 0xFFFF 1) [] () fresh) = none ∧
      endedWith (runTransaction failing (.read 0xFFFF 1) [0, 0] () fresh) = none := by decide

/-- R222: positions 2 to `n + 1` of a read data frame, position 2 of a status frame. -/
theorem test_frame_data :
    frameData (.rdata 2) [0x00, 0xAA, 0xBB, 0xCC] = [0xAA, 0xBB] ∧ frameData .status [0x00, 0x3F, 0x00] = [0x3F] ∧
      frameData (.wdata 1 [0x77]) [0x00, 0x00, 0x00] = [] := by decide

/-- `WriteTransactionCompletes`, `ReadTransactionReturnsData`: from the state before any frame, with the longest data, a
collaborator that fails and one that does not. -/
theorem test_witness_WriteTransactionCompletes :
    Inv { fresh with events := [] } ∧ fresh.state = .awaitControl ∧ fresh.txMode = .idle ∧
      fresh.readDataReq = false ∧ fresh.writeDataReq = false ∧ fresh.writeDataComplete = false ∧
      fresh.readDataReady = false ∧ (Transaction.write 0xFFFF [1, 2, 3, 4]).wellFormed fresh.cfg = true ∧
      (Transaction.read 0xFFFF 4).wellFormed fresh.cfg = true ∧
      (failing.regRead () 4 0xFFFF).1.bytes.length = (4 : Word16).toNat ∧
      (failing.regRead () 4 0xFFFF).1.failed = true ∧
      (passThrough.regRead [] 4 0xFFFF).1.bytes.length = (4 : Word16).toNat ∧
      (passThrough.regRead [] 4 0xFFFF).1.failed = false :=
  ⟨test_inv_fresh _, rfl, rfl, rfl, rfl, rfl, rfl, by decide, by decide, by decide, rfl, by decide, rfl⟩

/-- `WriteThenReadReturnsData`: a range that ends where the store ends. -/
theorem test_witness_WriteThenReadReturnsData :
    Inv { fresh with events := [] } ∧ (Transaction.write 0xFFFC [1, 2, 3, 4]).wellFormed fresh.cfg = true ∧
      Memory.wf 0x10000 [(0xFFFE, 0x01)] = true ∧
      (0xFFFC : Word16).toNat + ([1, 2, 3, 4] : List Byte).length ≤ 0x10000 :=
  ⟨test_inv_fresh _, by decide, by decide, by decide⟩

end Sys2Proof.Machine.Tests
end

section
/-! PROOFS. The rows of the frame decoder (40_frame_decoder.md R112, R113, R116, R120 to R123) at their control byte and
at the bytes that end a frame: an equation per operation first, then the statements. -/

namespace Sys2Proof.Machine

/-! ### The operation that each form of a row runs -/

theorem exec_winit_ctrl (x : Field2) (s : State) : exec (.winit (.ctrl x)) s = .next (startInit false s) := rfl

theorem exec_rinit_ctrl (x : Field2) (s : State) : exec (.rinit (.ctrl x)) s = .next (startInit true s) := rfl

theorem exec_status_ctrl (x : Field2) (s : State) : exec (.status (.ctrl x)) s = .next (startStatus s) := rfl

theorem exec_status_dontCare (b : Byte) (s : State) : exec (.status (.dontCare b)) s = .next (endStatus s) := rfl

theorem exec_rdata_data (b : Byte) (s : State) : exec (.rdata (.data b)) s = countRead s := rfl

theorem exec_wdata_data (b : Byte) (s : State) : exec (.wdata (.data b)) s = storeWrite b s := rfl

/-- Both INIT rows run R120 at their address-low byte. -/
theorem exec_addrLo {i : Instr} {b : Byte} (row : i = .winit (.addrLo b) ∨ i = .rinit (.addrLo b)) (s : State) :
    exec i s = .next (acquireAddrLo b s) := by
  obtain rfl | rfl := row <;> rfl

/-! ### The operations as equations -/

/-- R120, R88 with the address as a number and the request raised by cases on `direction`. -/
theorem acquireAddrLo_eq (b : Byte) (s : State) :
    acquireAddrLo b s =
      { s with
        address := some (BitVec.ofNat 16 (256 * s.addrHi.toNat + b.toNat))
        readDataReq := if s.direction then true else s.readDataReq
        state := .awaitControl } := by
  have request : (s.readDataReq || s.direction) = if s.direction then true else s.readDataReq := by
    cases s.direction <;> simp
  rw [acquireAddrLo, addressFrom_eq_ofNat, request]

/-- R121: with a length and a cursor inside the buffer the store succeeds and the byte is counted. -/
theorem storeWrite_of_inRange {s : State} {len : Word16} (hasLength : s.length = some len)
    (inRange : s.wrCursor.toNat < s.cfg.maxFrameLen) (b : Byte) :
    storeWrite b s =
      .next (countWrite len { s with payload := Memory.write s.payload s.wrCursor.toNat b }) := by
  have stored := payloadStore_eq_some (b := b).mpr ⟨inRange, rfl⟩
  simp only [storeWrite, hasLength, stored]

/-- R122: with a length the byte is counted. -/
theorem countRead_of_length {s : State} {len : Word16} (hasLength : s.length = some len) :
    countRead s = .next
      (if s.rdCursor + 1 = len then
        { s with rdCursor := s.rdCursor + 1, txMode := .idle, state := .awaitControl }
      else { s with rdCursor := s.rdCursor + 1 }) := by
  simp only [countRead, hasLength, nextCursor]
  split <;> rfl

/-! ### The statements -/

/-- Settles O6: both control bytes are `startInit`, which writes `direction`, `queued` and `state` alone. -/
theorem initControlByteStartsFrame : Obligations.InitControlByteStartsFrame := by
  intro s x
  constructor
  · rw [exec_winit_ctrl, startInit]
  · rw [exec_rinit_ctrl, startInit]

/-- Settles O9: either row runs `acquireAddrLo`, and so does the byte received in `AWAIT_ADDR_LO`. -/
theorem addressLowByteCommits : Obligations.AddressLowByteCommits := by
  intro s b i row
  constructor
  · rw [exec_addrLo row, acquireAddrLo_eq]
  · intro atAddrLo
    simp only [exec_addrLo row, receive_of_state, atAddrLo]

/-- Settles O13: the control byte is `startStatus`, whose status byte is computed from the flags before the clear. -/
theorem statusControlReadsAndClears : Obligations.StatusControlReadsAndClears := by
  intro s x
  rw [exec_status_ctrl, startStatus, clearStatusFlags]

/-- Settles O15: the cursor inside the buffer makes the store succeed; then the cases of `countWrite`. -/
theorem writeDataByteIsStored : Obligations.WriteDataByteIsStored := by
  intro s b len hasLength inRange
  constructor
  · rw [exec_wdata_data, storeWrite_of_inRange hasLength inRange]
    by_cases reached : s.wrCursor + 1 = len
    · simp only [countWrite, nextCursor, reached, ↓reduceIte]
    · simp only [countWrite, nextCursor, reached, ↓reduceIte]
  · intro atTransfer
    simp only [exec_wdata_data, receive_of_state, atTransfer]

/-- Settles O16: the byte is `countRead`, whatever its value. -/
theorem readDataByteIsCounted : Obligations.ReadDataByteIsCounted := by
  intro s b len hasLength
  constructor
  · rw [exec_rdata_data, countRead_of_length hasLength]
  · intro atTransfer
    simp only [exec_rdata_data, receive_of_state, atTransfer]

/-- Settles O17: the byte is `endStatus`, executed or received in `AWAIT_STATUS_SENT`. -/
theorem statusDontCareEndsFrame : Obligations.StatusDontCareEndsFrame := by
  intro s b
  constructor
  · rw [exec_status_dontCare, endStatus]
  · intro atStatusSent
    simp only [receive_of_state, atStatusSent, endStatus]

end Sys2Proof.Machine
end

section
/-! PROOFS. The status multiplexer (41_status_mux.md R150) as a number: each flag is a digit of its own in binary. -/

namespace Sys2Proof.Machine

/-- A flag contributes its mask's weight or nothing. -/
@[simp] theorem flagBit_toNat (flag : Bool) (mask : Byte) :
    (flagBit flag mask).toNat = mask.toNat * flag.toNat := by
  cases flag <;> simp [flagBit]

/-- A flag whose mask is one bit above the value so far adds that bit's weight. -/
theorem or_flagBit_toNat {acc mask : Byte} {k : Nat} (below : acc.toNat < 2 ^ k) (oneBit : mask.toNat = 2 ^ k)
    (flag : Bool) : (acc ||| flagBit flag mask).toNat = acc.toNat + 2 ^ k * flag.toNat := by
  rw [BitVec.toNat_or, flagBit_toNat, oneBit, Nat.or_comm, ← Nat.two_pow_add_eq_or_of_lt below, Nat.add_comm]

/-- So the value stays below the next bit. -/
theorem or_flagBit_lt {acc mask : Byte} {k : Nat} (below : acc.toNat < 2 ^ k) (oneBit : mask.toNat = 2 ^ k)
    (flag : Bool) : (acc ||| flagBit flag mask).toNat < 2 ^ (k + 1) := by
  have weight : 2 ^ k * flag.toNat ≤ 2 ^ k := by
    simpa using Nat.mul_le_mul_left (2 ^ k) flag.toNat_le
  rw [or_flagBit_toNat below oneBit, Nat.pow_succ]
  omega

/-- R150: the masks are the six lowest bits in order, so the flags add up, each with its own weight. -/
theorem statusMux_toNat (s : State) :
    (statusMux s).toNat =
      s.readDataReady.toNat + 2 * s.writeDataComplete.toNat + 4 * s.rxOverRunError.toNat +
        8 * s.txUnderRunError.toNat + 16 * s.writeRegError.toNat + 32 * s.readRegError.toNat := by
  have below1 : (flagBit s.readDataReady 0x01).toNat < 2 ^ 1 := by
    simpa using s.readDataReady.toNat_lt
  have below2 := or_flagBit_lt (mask := 0x02) below1 rfl s.writeDataComplete
  have below3 := or_flagBit_lt (mask := 0x04) below2 rfl s.rxOverRunError
  have below4 := or_flagBit_lt (mask := 0x08) below3 rfl s.txUnderRunError
  have below5 := or_flagBit_lt (mask := 0x10) below4 rfl s.writeRegError
  rw [statusMux, or_flagBit_toNat below5 rfl, or_flagBit_toNat below4 rfl, or_flagBit_toNat below3 rfl,
    or_flagBit_toNat below2 rfl, or_flagBit_toNat below1 rfl]
  simp

/-- Settles O14: the flags add up by `statusMux_toNat`, and the control byte is `startStatus`, which stores
the value. -/
theorem statusByteBits : Obligations.StatusByteBits := by
  intro s
  exact ⟨statusMux_toNat s, fun x => ⟨startStatus s, exec_status_ctrl x s, startStatus_statusByte s⟩⟩

end Sys2Proof.Machine
end

section
/-! PROOFS. The transmit sequencer (42_transmit_sequencer.md R160, R161, R163): the byte a transmit step emits, and
that nothing before it in the invocation emits. -/

namespace Sys2Proof.Machine

/-! ### The transmit step mode by mode -/

/-- R161. -/
theorem transmit_of_status {s : State} (mode : s.txMode = .status) :
    transmit s = .next (emit s.statusByte { s with txMode := .idle }) := by
  rw [transmit, mode]

/-- R163. -/
theorem transmit_of_idle {s : State} (mode : s.txMode = .idle) : transmit s = .next (emit fillByte s) := by
  rw [transmit, mode]

/-! ### The control byte of a data frame -/

/-- R114: a control byte that answers a next state found a committed length. -/
theorem exec_rdata_ctrl_eq_next {x : Field2} {s t : State} (h : exec (.rdata (.ctrl x)) s = .next t) :
    s.length.isSome ∧ t = startRead s := by
  rw [exec, execRdata] at h
  split at h
  · cases h
  · next hasLength => cases h; exact ⟨by simp [hasLength], rfl⟩

/-- R115: the same of the write direction. -/
theorem exec_wdata_ctrl_eq_next {x : Field2} {s t : State} (h : exec (.wdata (.ctrl x)) s = .next t) :
    s.length.isSome ∧ t = startWrite s := by
  rw [exec, execWdata] at h
  split at h
  · cases h
  · next hasLength => cases h; exact ⟨by simp [hasLength], rfl⟩

/-! ### The receive step emits nothing -/

theorem acquireLength_emitted (b : Byte) (s : State) : (acquireLength b s).emitted = s.emitted := by
  obtain ⟨_, acquired⟩ | ⟨_, abandoned⟩ := acquireLength_cases b s
  · rw [acquired]
  · rw [abandoned, abandonFrame_emitted]

theorem countRead_emitted {s t : State} (h : countRead s = .next t) : t.emitted = s.emitted := by
  obtain ⟨_, _, ⟨_, rfl⟩ | ⟨_, rfl⟩⟩ := countRead_eq_next h
  · rfl
  · rfl

theorem storeWrite_emitted {b : Byte} {s t : State} (h : storeWrite b s = .next t) : t.emitted = s.emitted := by
  obtain ⟨_, _, _, ⟨_, rfl⟩ | ⟨_, rfl⟩⟩ := storeWrite_eq_next h
  · rfl
  · rfl

theorem execSyncByte_emitted {pattern low : Nibble} {s t : State} (h : execSyncByte pattern low s = .next t) :
    t.emitted = s.emitted := by
  obtain ⟨_, accepted⟩ | ⟨_, abandoned⟩ := execSyncByte_cases pattern low s
  · cases accepted.symm.trans h
    rfl
  · cases abandoned.symm.trans h
    rfl

/-- The four bytes of an INIT frame, of either row. -/
theorem execInit_emitted {byte : InitByte} {s t : State}
    (h : execWinit byte s = .next t ∨ execRinit byte s = .next t) : t.emitted = s.emitted := by
  cases byte with
  | lenLow b => obtain h | h := h <;> cases h <;> exact acquireLength_emitted b s
  | _ => obtain h | h := h <;> cases h <;> rfl

/-- No instruction emits: bytes leave the block in its transmit step alone. -/
theorem exec_emitted {i : Instr} {s t : State} (h : exec i s = .next t) : t.emitted = s.emitted := by
  cases i with
  | winit byte => exact execInit_emitted (.inl h)
  | rinit byte => exact execInit_emitted (.inr h)
  | rdata byte =>
    cases byte with
    | ctrl _ =>
      obtain ⟨_, rfl⟩ := exec_rdata_ctrl_eq_next h
      rfl
    | data _ => exact countRead_emitted h
  | wdata byte =>
    cases byte with
    | ctrl _ =>
      obtain ⟨_, rfl⟩ := exec_wdata_ctrl_eq_next h
      rfl
    | data _ => exact storeWrite_emitted h
  | dataAccessNoLength _ => cases h
  | status byte => cases byte <;> cases h <;> rfl
  | ignoredByte _ _ => cases h; rfl
  | syncByte _ _ => exact execSyncByte_emitted h

/-- The second step of an invocation (60_exceptions.md R191) emits nothing, with a byte or without. -/
theorem receiveIfPresent_emitted {rx : Option Byte} {s u : State} (h : receiveIfPresent rx s = .next u) :
    u.emitted = s.emitted := by
  cases rx with
  | none => cases h; rfl
  | some b =>
    rw [receiveIfPresent, receive] at h
    exact exec_emitted h

/-! ### The statements -/

/-- Settles O28: the invocation is its receive step, which emits nothing, and then its transmit step, by the three
modes of `transmit_eq_next`. -/
theorem transmitEmitsOneByte : Obligations.TransmitEmitsOneByte := by
  intro s u t snap received invoked
  have silent : u.emitted = s.emitted := by
    rw [receiveIfPresent_emitted received, captureErrors_emitted]
  have sent : transmitIfReady snap.txReady u = .next t := by
    rwa [invoke, received, andThen_next] at invoked
  constructor
  · intro ready
    rw [transmitIfReady, if_pos ready] at sent
    rw [← silent]
    obtain ⟨mode, rfl⟩ | ⟨mode, _, rfl⟩ | ⟨mode, rfl⟩ := transmit_eq_next sent
    · exact ⟨rfl, by rw [mode]⟩
    · exact ⟨rfl, by rw [mode]⟩
    · exact ⟨rfl, by rw [mode, fillByte]⟩
  · intro notReady
    rw [transmitIfReady, notReady] at sent
    cases sent
    exact ⟨rfl, silent⟩

/-- Settles O26: the step is the transmit step on the state without the event, in each of the two modes. -/
theorem transmitInStatusAndIdleMode : Obligations.TransmitInStatusAndIdleMode := by
  intro s rest pending
  rw [step_of_cons pending, runEvent_txEvent]
  constructor
  · intro mode
    exact transmit_of_status mode
  · intro mode
    exact transmit_of_idle mode

end Sys2Proof.Machine
end

section
/-! PROOFS. The dispatcher (43_dispatcher.md R170 to R172): an equation per branch with and without its request, then
one whole call. -/

namespace Sys2Proof.Machine

/-! ### The branches -/

theorem readBranch_of_no_request {s : State} (idle : s.readDataReq = false) (answer : RegAnswer) :
    readBranch answer s = .next s := by
  simp only [readBranch, idle, Bool.false_eq_true, ↓reduceIte]

theorem writeBranch_of_no_request {s : State} (idle : s.writeDataReq = false) (answer : RegAnswer) :
    writeBranch answer s = .next s := by
  simp only [writeBranch, idle, Bool.false_eq_true, ↓reduceIte]

/-- R172: with a request pending and both operands committed, the branch makes its one call and completes, whether or
not the collaborator fails. -/
theorem writeBranch_of_request {s : State} {len addr : Word16} (pending : s.writeDataReq = true)
    (hasLength : s.length = some len) (hasAddress : s.address = some addr) (answer : RegAnswer) :
    writeBranch answer s = .next
      { s with
        writeRegError := answer.failed, writeDataReq := false, writeDataComplete := true
        regCalls := s.regCalls ++ [.write len addr (Memory.readList s.payload 0 len.toNat)] } := by
  rw [writeBranch, if_pos pending, withLength_of_some hasLength, withAddress_of_some hasAddress]

/-- R170: with no read pending, a call is its write branch. -/
theorem dispatchCall_of_no_read_request {s : State} (idle : s.readDataReq = false)
    (readAnswer writeAnswer : RegAnswer) :
    dispatchCall readAnswer writeAnswer s = writeBranch writeAnswer s := by
  rw [dispatchCall, readBranch_of_no_request idle, andThen_next]

/-- A range from the buffer's start is read index by index. -/
theorem Memory.readList_zero (m : Memory) (n : Nat) :
    Memory.readList m 0 n = (List.range n).map fun i => Memory.read m i := by
  simp only [Memory.readList, Nat.zero_add]

/-! ### The statement -/

/-- Settles O43: with no read pending the call is `writeBranch`, by cases on its request; the bytes of the call are
those that `Memory.readList` reads from index 0. -/
theorem writeBranchServesRequest : Obligations.WriteBranchServesRequest := by
  intro s answer other noRead
  rw [dispatchCall_of_no_read_request noRead]
  constructor
  · intro len addr pending hasLength hasAddress
    rw [writeBranch_of_request pending hasLength hasAddress, Memory.readList_zero]
  · intro noWrite
    exact writeBranch_of_no_request noWrite answer

end Sys2Proof.Machine
end

section
/-! PROOFS. The ignored byte (40_frame_decoder.md R111, 60_exceptions.md R181): how it decodes, and what it does. -/

namespace Sys2Proof.Machine

/-- R110: in `AWAIT_CONTROL` every byte is decoded as a control byte. -/
theorem decodeByte_of_awaitControl {m : DecodeMode} (atControl : m.state = .awaitControl) (c : Cfg) (b : Byte) :
    decodeByte c m b = decodeControl c m b := by
  rw [decodeByte, atControl]

/-- R111: without the sync nibble on top a control byte is no opcode, whatever its low nibble. -/
theorem decodeControl_of_highNibble_ne {c : Cfg} {b : Byte} (unsynced : highNibble b ≠ c.sync1) (m : DecodeMode) :
    decodeControl c m b = .ignoredByte (highNibble b) (lowNibble b) := by
  rw [decodeControl, if_neg unsynced]

theorem exec_ignoredByte (high low : Nibble) (s : State) : exec (.ignoredByte high low) s = .next s := rfl

/-! ### The statement -/

/-- Settles O18: in `AWAIT_CONTROL` the byte reaches the last branch of `decodeControl`, and that row answers the state
it was given. -/
theorem ignoredByteChangesNothing : Obligations.IgnoredByteChangesNothing := by
  intro s b atControl unsynced
  constructor
  · have decodesAtControl : (decodeMode s).state = .awaitControl := atControl
    rw [decodeByte_of_awaitControl decodesAtControl, decodeControl_of_highNibble_ne unsynced, highNibble, lowNibble]
  · exact exec_ignoredByte _ _ s

end Sys2Proof.Machine
end

section
/-! PROOFS. The decoder and the encoder (30_encoding.md R81 to R97): what each form encodes to and decodes from, and which
of its six examined bits make a byte a control byte. -/

namespace Sys2Proof

open Machine

/-! ### Decoding an encoding -/

/-- The code of the row that `direction` names. -/
def initCode (c : Cfg) (direction : Bool) : Field2 := if direction then c.opcReadInit else c.opcWriteInit

theorem encodeByte_initInstr (c : Cfg) (direction : Bool) (b : InitByte) :
    encodeByte c (initInstr direction b) = encodeInit c (initCode c direction) b := by
  cases direction <;> rfl

theorem wellFormed_initInstr (c : Cfg) (direction : Bool) (b : InitByte) :
    (initInstr direction b).wellFormed c = true := by
  cases direction <;> rfl

theorem admits_initInstr_ctrl {m : DecodeMode} {direction : Bool} {x : Field2} :
    m.admits (initInstr direction (.ctrl x)) = true ↔ m.state = .awaitControl := by
  cases direction <;> simp [initInstr, DecodeMode.admits]

/-- R23: after its control byte the latch tells the row. -/
theorem admits_initInstr {m : DecodeMode} {direction : Bool} {b : InitByte} (notControl : ∀ x, b ≠ .ctrl x) :
    m.admits (initInstr direction b) = true ↔ m.state = b.readIn ∧ m.direction = direction := by
  cases b with
  | ctrl x => exact absurd rfl (notControl x)
  | lenLow _ | addrHi _ | addrLo _ => cases direction <;> simp [initInstr, DecodeMode.admits]

theorem decodeControl_initCode {c : Cfg} (valid : c.Valid) (m : DecodeMode) (direction : Bool) (x : Field2) :
    decodeControl c m (controlByte c (initCode c direction) x) = initInstr direction (.ctrl x) := by
  cases direction
  · exact decodeControl_writeInit m x
  · exact decodeControl_readInit valid m x

/-- A byte of an INIT frame after its control byte is its own operand, and is read in the row `direction` names. -/
theorem decodeByte_encodeInit {m : DecodeMode} {b : InitByte} (notControl : ∀ x, b ≠ .ctrl x)
    (here : m.state = b.readIn) (c : Cfg) (code : Field2) :
    decodeByte c m (encodeInit c code b) = initInstr m.direction b := by
  cases b with
  | ctrl x => exact absurd rfl (notControl x)
  | lenLow _ | addrHi _ | addrLo _ => simp only [decodeByte, here, InitByte.readIn, encodeInit]

/-- Either INIT row reads back: at its control byte by its code, after it by the latch. -/
theorem decodeByte_encodeByte_initInstr {c : Cfg} {m : DecodeMode} {direction : Bool} {b : InitByte} (valid : c.Valid)
    (admitted : m.admits (initInstr direction b) = true) :
    decodeByte c m (encodeByte c (initInstr direction b)) = initInstr direction b := by
  rw [encodeByte_initInstr]
  by_cases control : ∃ x, b = .ctrl x
  · obtain ⟨x, rfl⟩ := control
    rw [decodeByte_of_awaitControl (admits_initInstr_ctrl.mp admitted), encodeInit, decodeControl_initCode valid]
  · have notControl : ∀ x, b ≠ .ctrl x := by simpa using control
    obtain ⟨here, latch⟩ := (admits_initInstr notControl).mp admitted
    rw [decodeByte_encodeInit notControl here, latch]

/-- Every well-formed instruction reads back in a mode that admits it. -/
theorem decodeByte_encodeByte {c : Cfg} {m : DecodeMode} {i : Instr} (valid : c.Valid) (wf : i.wellFormed c = true)
    (admitted : m.admits i = true) : decodeByte c m (encodeByte c i) = i := by
  cases i with
  | winit b => exact decodeByte_encodeByte_initInstr (direction := false) valid admitted
  | rinit b => exact decodeByte_encodeByte_initInstr (direction := true) valid admitted
  | rdata b =>
    cases b with
    | ctrl x =>
      obtain ⟨⟨here, latch⟩, committed⟩ : (m.state = .awaitControl ∧ m.direction = true) ∧ m.hasLength = true := by
        simpa [DecodeMode.admits] using admitted
      simp only [encodeByte, encodeData, decodeByte_of_awaitControl here, decodeControl_dataAccess valid, latch,
        committed, if_true]
    | data b =>
      have here : m.state = .transferRead := by simpa [DecodeMode.admits] using admitted
      simp only [encodeByte, encodeData, decodeByte, here]
  | wdata b =>
    cases b with
    | ctrl x =>
      obtain ⟨⟨here, latch⟩, committed⟩ : (m.state = .awaitControl ∧ m.direction = false) ∧ m.hasLength = true := by
        simpa [DecodeMode.admits] using admitted
      simp only [encodeByte, encodeData, decodeByte_of_awaitControl here, decodeControl_dataAccess valid, latch,
        committed, if_true, Bool.false_eq_true, if_false]
    | data b =>
      have here : m.state = .transferWrite := by simpa [DecodeMode.admits] using admitted
      simp only [encodeByte, encodeData, decodeByte, here]
  | dataAccessNoLength x =>
    obtain ⟨here, uncommitted⟩ : m.state = .awaitControl ∧ m.hasLength = false := by
      simpa [DecodeMode.admits] using admitted
    simp only [encodeByte, decodeByte_of_awaitControl here, decodeControl_dataAccess valid, uncommitted,
      Bool.false_eq_true, if_false]
  | status b =>
    cases b with
    | ctrl x =>
      have here : m.state = .awaitControl := by simpa [DecodeMode.admits] using admitted
      exact (decodeByte_of_awaitControl here c _).trans (decodeControl_statusRead valid m x)
    | dontCare b =>
      have here : m.state = .awaitStatusSent := by simpa [DecodeMode.admits] using admitted
      simp only [encodeByte, encodePoll, decodeByte, here]
  | ignoredByte high low =>
    have here : m.state = .awaitControl := by simpa [DecodeMode.admits] using admitted
    have unsynced : highNibble (nibblePair high low) ≠ c.sync1 := by simpa [Instr.wellFormed] using wf
    rw [encodeByte, decodeByte_of_awaitControl here, decodeControl_of_highNibble_ne unsynced,
      highNibble_nibblePair, lowNibble_nibblePair]
  | syncByte pattern low =>
    have here : m.state = .awaitSync := by simpa [DecodeMode.admits] using admitted
    simp only [encodeByte, decodeByte, here, highNibble_nibblePair, lowNibble_nibblePair]

/-! ### Encoding a decoding -/

/-- R111 under a legal configuration: the opcode of a control byte and the row it selects, case by case. -/
theorem decodeControl_cases {c : Cfg} (valid : c.Valid) (m : DecodeMode) (b : Byte) :
    (highNibble b ≠ c.sync1 ∧ decodeControl c m b = .ignoredByte (highNibble b) (lowNibble b)) ∨
    (highNibble b = c.sync1 ∧
      ((opcodeField b = c.opcWriteInit ∧ decodeControl c m b = .winit (.ctrl (unusedField b))) ∨
        (opcodeField b = c.opcReadInit ∧ decodeControl c m b = .rinit (.ctrl (unusedField b))) ∨
        (opcodeField b = c.opcDataAccess ∧ m.hasLength = true ∧ m.direction = true ∧
          decodeControl c m b = .rdata (.ctrl (unusedField b))) ∨
        (opcodeField b = c.opcDataAccess ∧ m.hasLength = true ∧ m.direction = false ∧
          decodeControl c m b = .wdata (.ctrl (unusedField b))) ∨
        (opcodeField b = c.opcDataAccess ∧ m.hasLength = false ∧
          decodeControl c m b = .dataAccessNoLength (unusedField b)) ∨
        (opcodeField b = c.opcStatusRead ∧ decodeControl c m b = .status (.ctrl (unusedField b))))) := by
  by_cases synced : highNibble b = c.sync1
  · refine .inr ⟨synced, ?_⟩
    have fields := controlByte_fields synced
    by_cases writeInit : opcodeField b = c.opcWriteInit
    · rw [← fields, writeInit, decodeControl_writeInit]; simp
    by_cases readInit : opcodeField b = c.opcReadInit
    · rw [← fields, readInit, decodeControl_readInit valid]; simp
    by_cases dataAccess : opcodeField b = c.opcDataAccess
    · rw [← fields, dataAccess, decodeControl_dataAccess valid]
      cases committed : m.hasLength
      · simp
      · cases latch : m.direction <;> simp
    · rw [← fields, valid.code_eq writeInit readInit dataAccess, decodeControl_statusRead valid]; simp
  · exact .inl ⟨synced, decodeControl_of_highNibble_ne synced m⟩

/-- R81 to R85: a byte decoded in `AWAIT_CONTROL` encodes back. -/
theorem decodeControl_spec {c : Cfg} (valid : c.Valid) {m : DecodeMode} (here : m.state = .awaitControl) (b : Byte) :
    encodeByte c (decodeControl c m b) = b ∧ (decodeControl c m b).wellFormed c = true ∧
      m.admits (decodeControl c m b) = true := by
  obtain ⟨unsynced, row⟩ | ⟨synced, cases⟩ := decodeControl_cases valid m b
  · rw [row]
    simp [encodeByte, Instr.wellFormed, DecodeMode.admits, here, unsynced]
  · have fields := controlByte_fields synced
    obtain ⟨code, row⟩ | ⟨code, row⟩ | ⟨code, committed, latch, row⟩ | ⟨code, committed, latch, row⟩ |
      ⟨code, committed, row⟩ | ⟨code, row⟩ := cases
    all_goals
      rw [code] at fields
      rw [row]
      simp [encodeByte, encodeInit, encodeData, encodePoll, Instr.wellFormed, DecodeMode.admits, *]

/-- R83, R84: a byte read as one of an INIT frame after its control byte encodes back. -/
theorem decodeByte_spec_of_init {c : Cfg} {m : DecodeMode} {b : Byte} {byte : InitByte}
    (notControl : ∀ x, byte ≠ .ctrl x) (here : m.state = byte.readIn) (operand : ∀ code, encodeInit c code byte = b) :
    encodeByte c (decodeByte c m b) = b ∧ (decodeByte c m b).wellFormed c = true ∧
      m.admits (decodeByte c m b) = true := by
  have row : decodeByte c m b = initInstr m.direction byte := by
    rw [← operand 0, decodeByte_encodeInit notControl here]
  rw [row]
  exact ⟨(encodeByte_initInstr c _ byte).trans (operand _), wellFormed_initInstr c _ byte,
    (admits_initInstr notControl).mpr ⟨here, rfl⟩⟩

/-! ### The examined bits -/

/-- R9. -/
theorem bits_7_4_eq_highNibble (b : Byte) : b.extractLsb' 4 4 = highNibble b := rfl

/-- R89: the control byte as a number is the control byte of the fields, its unused bits 0. -/
theorem controlWord_eq (c : Cfg) (code : Field2) : Claims.controlWord c code = controlByte c code 0 := by
  have : ∀ (n : Nibble) (code : Field2), (n.setWidth 8 <<< 4) ||| code.setWidth 8 = n ++ (0 : Field2) ++ code := by
    decide
  exact this c.sync1 code

/-- The mask F3 keeps the high nibble and the opcode field. -/
theorem mask_eq_controlWord_iff {c : Cfg} {b : Byte} {code : Field2} :
    b &&& 0xF3 = Claims.controlWord c code ↔ highNibble b = c.sync1 ∧ opcodeField b = code := by
  have fields : ∀ b : Byte, b &&& 0xF3 = highNibble b ++ (0 : Field2) ++ opcodeField b := by decide
  rw [controlWord_eq, fields b]
  constructor
  · intro same
    have high : highNibble (controlByte { c with sync1 := highNibble b } (opcodeField b) 0) = c.sync1 :=
      (congrArg highNibble same).trans (highNibble_controlByte c code 0)
    have low : opcodeField (controlByte { c with sync1 := highNibble b } (opcodeField b) 0) = code :=
      (congrArg opcodeField same).trans (opcodeField_controlByte c code 0)
    simpa using And.intro high low
  · rintro ⟨high, low⟩
    rw [high, low, controlByte]

/-! ### The statements -/

/-- Settles O1: one byte is decoded and the rest left, and the byte reads back by `decodeByte_encodeByte`. -/
theorem decodeOfEncode : Obligations.DecodeOfEncode := by
  intro c m i rest valid wf admitted
  rw [encode, List.singleton_append, decode, decodeByte_encodeByte valid wf admitted]

/-- Settles O2: state by state; in `AWAIT_CONTROL` by the opcode, elsewhere the byte itself is the operand. -/
theorem encodeOfDecode : Obligations.EncodeOfDecode := by
  intro c m b valid
  cases here : m.state with
  | awaitControl =>
    rw [decodeByte_of_awaitControl here]
    exact decodeControl_spec valid here b
  | awaitLenLow => exact decodeByte_spec_of_init (byte := .lenLow b) (by simp) here fun _ => rfl
  | awaitAddrHi => exact decodeByte_spec_of_init (byte := .addrHi b) (by simp) here fun _ => rfl
  | awaitAddrLo => exact decodeByte_spec_of_init (byte := .addrLo b) (by simp) here fun _ => rfl
  | awaitSync | transferRead | transferWrite | awaitStatusSent =>
    simp [decodeByte, here, encodeByte, encodeData, encodePoll, Instr.wellFormed, DecodeMode.admits]

/-- Settles O4: the mask is the two examined fields, and `decodeControl_cases` gives the row of each pair of fields; the
codes being distinct, no other row has it. -/
theorem controlByteSelectsOpcode : Obligations.ControlByteSelectsOpcode := by
  intro c m b valid here
  obtain ⟨wr, wd, ws, rd, rs, ds⟩ := valid.1
  simp only [mask_eq_controlWord_iff, decodeByte_of_awaitControl here, bits_7_4_eq_highNibble]
  obtain ⟨unsynced, row⟩ | ⟨synced, cases⟩ := decodeControl_cases valid m b
  · simp [row, unsynced]
  · obtain ⟨code, row⟩ | ⟨code, row⟩ | ⟨code, committed, latch, row⟩ | ⟨code, committed, latch, row⟩ |
      ⟨code, committed, row⟩ | ⟨code, row⟩ := cases
    all_goals simp [*, Ne.symm]

/-- Settles O5: `decodeByte` by the state, the latch choosing between the INIT rows. -/
theorem followingBytesDecodeByState : Obligations.FollowingBytesDecodeByState := by
  intro s b
  have mode : (decodeMode s).state = s.state := rfl
  have latch : (decodeMode s).direction = s.direction := rfl
  refine ⟨?_, ?_, ?_, ?_, ?_, ?_, ?_⟩
  all_goals
    intro here
    simp only [decodeByte, mode, latch, here, initInstr, highNibble, lowNibble]

/-- Settles O3, byte by byte. -/
theorem referenceWordsDecode : Obligations.ReferenceWordsDecode := by
  unfold Obligations.ReferenceWordsDecode
  decide

end Sys2Proof
end

section
/-! PROOFS. The rows of the frame decoder at the bytes the statements above leave out (40_frame_decoder.md R114, R115,
R117 to R119, R127), and what every row leaves unchanged. -/

namespace Sys2Proof.Machine

/-! ### The operation that each form of a row runs -/

/-- Both INIT rows run R118 at their length byte. -/
theorem exec_lenLow {i : Instr} {b : Byte} (row : i = .winit (.lenLow b) ∨ i = .rinit (.lenLow b)) (s : State) :
    exec i s = .next (acquireLength b s) := by
  obtain rfl | rfl := row <;> rfl

/-- Both INIT rows run R119 at their address-high byte. -/
theorem exec_addrHi {i : Instr} {b : Byte} (row : i = .winit (.addrHi b) ∨ i = .rinit (.addrHi b)) (s : State) :
    exec i s = .next (acquireAddrHi b s) := by
  obtain rfl | rfl := row <;> rfl

theorem exec_syncByte (pattern low : Nibble) (s : State) :
    exec (.syncByte pattern low) s = execSyncByte pattern low s := rfl

theorem exec_dataAccessNoLength (x : Field2) (s : State) :
    exec (.dataAccessNoLength x) s = .fault .dataAccessBeforeInit := rfl

/-- R114 once a length is committed. -/
theorem exec_rdata_ctrl {s : State} (hasLength : s.length.isSome) (x : Field2) :
    exec (.rdata (.ctrl x)) s = .next (startRead s) := by
  obtain ⟨len, committed⟩ := Option.isSome_iff_exists.mp hasLength
  simp only [exec, execRdata, committed]

/-- R115 once a length is committed. -/
theorem exec_wdata_ctrl {s : State} (hasLength : s.length.isSome) (x : Field2) :
    exec (.wdata (.ctrl x)) s = .next (startWrite s) := by
  obtain ⟨len, committed⟩ := Option.isSome_iff_exists.mp hasLength
  simp only [exec, execWdata, committed]

/-- R127. -/
theorem exec_rdata_ctrl_of_none {s : State} (noLength : s.length = none) (x : Field2) :
    exec (.rdata (.ctrl x)) s = .fault .dataAccessBeforeInit := by
  simp only [exec, execRdata, noLength]

/-- R127. -/
theorem exec_wdata_ctrl_of_none {s : State} (noLength : s.length = none) (x : Field2) :
    exec (.wdata (.ctrl x)) s = .fault .dataAccessBeforeInit := by
  simp only [exec, execWdata, noLength]

/-- R118 with the candidate as a number. -/
theorem acquireLength_eq (b : Byte) (s : State) :
    acquireLength b s =
      if 0 < 256 * s.lenHi.toNat + b.toNat ∧ 256 * s.lenHi.toNat + b.toNat ≤ s.cfg.maxFrameLen then
        { s with length := some (BitVec.ofNat 16 (256 * s.lenHi.toNat + b.toNat)), state := .awaitAddrHi }
      else { s with state := .awaitControl } := by
  have candidate := lengthCandidate_toNat s.lenHi b
  obtain ⟨legal, committed⟩ | ⟨illegal, refused⟩ := acquireLength_cases b s
  · rw [legalLength, candidate] at legal
    rw [committed, if_pos ⟨by omega, legal.2⟩, lengthCandidate_eq_ofNat]
  · rw [legalLength, candidate] at illegal
    rw [refused, if_neg fun h => illegal ⟨by omega, h.2⟩, abandonFrame]

/-! ### A control byte received -/

/-- R111: in `AWAIT_CONTROL` the control byte of a code runs the row that the code decodes to. -/
theorem decodeByte_dataAccess {s : State} (valid : s.cfg.Valid) (here : s.state = .awaitControl) (x : Field2) :
    decodeByte s.cfg (decodeMode s) (controlByte s.cfg s.cfg.opcDataAccess x) =
      if s.length.isSome then if s.direction then .rdata (.ctrl x) else .wdata (.ctrl x)
      else .dataAccessNoLength x :=
  (decodeByte_of_awaitControl (m := decodeMode s) here _ _).trans (decodeControl_dataAccess valid (decodeMode s) x)

/-- R127: without a length the received byte faults. -/
theorem receive_dataAccess_of_none {s : State} (valid : s.cfg.Valid) (here : s.state = .awaitControl)
    (noLength : s.length = none) (x : Field2) :
    receive (controlByte s.cfg s.cfg.opcDataAccess x) s = .fault .dataAccessBeforeInit := by
  simp only [receive, decodeByte_dataAccess valid here, noLength, Option.isSome_none, Bool.false_eq_true, if_false,
    exec_dataAccessNoLength]

/-! ### The statements about single bytes -/

/-- Settles O7: either row runs `acquireLength`, and so does the byte received in `AWAIT_LEN_LOW`. -/
theorem lengthByteCommitsOrAbandons : Obligations.LengthByteCommitsOrAbandons := by
  intro s b i row
  constructor
  · rw [exec_lenLow row, acquireLength_eq]
  · intro here
    simp only [exec_lenLow row, receive_of_state, here]

/-- Settles O8: either row runs `acquireAddrHi`, and so does the byte received in `AWAIT_ADDR_HI`. -/
theorem addressHighByteIsHeld : Obligations.AddressHighByteIsHeld := by
  intro s b i row
  constructor
  · rw [exec_addrHi row, acquireAddrHi]
  · intro here
    simp only [receive_of_state, here, acquireAddrHi]

/-- Settles O10: the row that the latch and the committed length select, and its operation `startRead`. -/
theorem readDataControlArmsSequencer : Obligations.ReadDataControlArmsSequencer := by
  intro s x len valid here latch committed
  constructor
  · simp only [decodeByte_dataAccess valid here, committed, latch, Option.isSome_some, if_true]
  · rw [exec_rdata_ctrl (by simp [committed]), startRead]

/-- Settles O11: with a length the row and its operation `startWrite`; without one both ways to the fault. -/
theorem writeDataControlResetsCursor : Obligations.WriteDataControlResetsCursor := by
  intro s x valid here latch
  constructor
  · intro len committed
    constructor
    · simp only [decodeByte_dataAccess valid here, committed, latch, Option.isSome_some, if_true, Bool.false_eq_true,
        if_false]
    · rw [exec_wdata_ctrl (by simp [committed]), startWrite]
  · intro noLength
    exact ⟨exec_wdata_ctrl_of_none noLength x, receive_dataAccess_of_none valid here noLength x⟩

/-- Settles O12: the receive step faults, the error capture before it having changed neither the mode nor the length,
and a fault ends the step. -/
theorem dataAccessWithoutLengthFaults : Obligations.DataAccessWithoutLengthFaults := by
  refine ⟨fun s x => exec_dataAccessNoLength x s, ?_⟩
  intro s x snap rest valid here noLength pending carried
  constructor
  · simp only [decodeByte_dataAccess valid here, noLength, Option.isSome_none, Bool.false_eq_true, if_false]
  · have faults := receive_dataAccess_of_none (s := captureErrors snap.ovr snap.udr { s with events := rest }) valid here
      noLength x
    rw [step_of_cons pending, runEvent, invoke, carried, receiveIfPresent]
    exact congrArg (andThen · _) faults

/-- Settles O19: the two cases of `execSyncByte`; the target of each queued state is written out. -/
theorem syncByteAcceptsOrAbandons : Obligations.SyncByteAcceptsOrAbandons := by
  intro s pattern low
  rw [exec_syncByte]
  obtain ⟨matched, accepted⟩ | ⟨other, refused⟩ := execSyncByte_cases pattern low s
  · rw [accepted, if_pos matched, acceptSync]
    cases s.queued <;> rfl
  · rw [refused, if_neg other, abandonFrame]

/-! ### The statements about what a row leaves unchanged -/

/-- The operation of an INIT byte, of either row. -/
theorem exec_initByte {byte : InitByte} {i : Instr} (row : i = .winit byte ∨ i = .rinit byte) (s : State) :
    ∃ direction, exec i s = .next
      (match byte with
        | .ctrl _ => startInit direction s
        | .lenLow b => acquireLength b s
        | .addrHi b => acquireAddrHi b s
        | .addrLo b => acquireAddrLo b s) := by
  obtain rfl | rfl := row
  · exact ⟨false, by cases byte <;> rfl⟩
  · exact ⟨true, by cases byte <;> rfl⟩

/-- Settles O20: each byte is a named operation, and each operation writes its own fields. -/
theorem frameOfInitBytes : Obligations.FrameOfInitBytes := by
  intro s t byte i row executed
  obtain ⟨direction, operation⟩ := exec_initByte row s
  cases operation.symm.trans executed
  cases byte with
  | lenLow b => obtain ⟨_, e⟩ | ⟨_, e⟩ := acquireLength_cases b s <;> simp [e, abandonFrame]
  | ctrl _ | addrHi _ | addrLo _ => simp +contextual [startInit, acquireAddrHi, acquireAddrLo]

/-- Settles O21: the control byte is `startRead`, a don't-care byte one of the two cases of `countRead`. -/
theorem frameOfReadDataBytes : Obligations.FrameOfReadDataBytes := by
  intro s t byte executed
  cases byte with
  | ctrl x =>
    obtain ⟨_, rfl⟩ := exec_rdata_ctrl_eq_next executed
    simp [startRead]
  | data b =>
    obtain ⟨_, _, ⟨_, rfl⟩ | ⟨_, rfl⟩⟩ := countRead_eq_next executed
    · simp
    · simp

/-- Settles O22: the control byte is `startWrite`; a data byte writes the buffer at the cursor, as the laws of the
buffer say, whether or not it is the last. -/
theorem frameOfWriteDataBytes : Obligations.FrameOfWriteDataBytes := by
  constructor
  · intro s t x executed
    obtain ⟨_, rfl⟩ := exec_wdata_ctrl_eq_next executed
    simp [startWrite]
  · intro s t b executed
    have others : ∀ a, a ≠ s.wrCursor.toNat →
        Memory.read (Memory.write s.payload s.wrCursor.toNat b) a = Memory.read s.payload a :=
      fun _ ne => Memory.read_write_other b _ ne
    have same : Memory.wf s.cfg.maxFrameLen s.payload = true →
        Memory.read (Memory.write s.payload s.wrCursor.toNat b) s.wrCursor.toNat = b :=
      fun wf => Memory.read_write_same b wf
    obtain ⟨_, _, _, ⟨_, rfl⟩ | ⟨_, rfl⟩⟩ := storeWrite_eq_next executed
    · exact ⟨rfl, fun _ => rfl, others, same⟩
    · exact ⟨rfl, id, others, same⟩

/-- Settles O23: STATUS by its two bytes, the sync byte by its two cases, the ignored byte as it stands. -/
theorem frameOfStatusAndFramingBytes : Obligations.FrameOfStatusAndFramingBytes := by
  refine ⟨?_, ?_, ?_⟩
  · intro s t byte executed
    cases byte with
    | ctrl x =>
      cases (exec_status_ctrl x s).symm.trans executed
      exact ⟨rfl, fun notControl => absurd rfl (notControl x), fun _ => rfl⟩
    | dontCare b =>
      cases (exec_status_dontCare b s).symm.trans executed
      exact ⟨rfl, fun _ => rfl, fun _ => rfl⟩
  · intro s t pattern low executed
    rw [exec_syncByte] at executed
    obtain ⟨_, accepted⟩ | ⟨_, refused⟩ := execSyncByte_cases pattern low s
    · cases accepted.symm.trans executed
      exact ⟨rfl, fun _ => rfl⟩
    · cases refused.symm.trans executed
      exact ⟨rfl, fun _ => rfl⟩
  · intro s t high low executed
    cases (exec_ignoredByte high low s).symm.trans executed
    rfl

end Sys2Proof.Machine
end

section
/-! PROOFS. One step and one invocation (60_exceptions.md R190, R191, R203), the reset (10_state.md R47, 70_reset_and_hazards.md
R210), and lists of events as runs of the core. -/

namespace Sys2Proof.Machine

/-! ### The parts of an invocation -/

/-- A one-byte list decodes to the instruction of its byte. -/
theorem decode_singleton_eq_ok {c : Cfg} {m : DecodeMode} {b : Byte} {i : Instr} :
    decode c m [b] = .ok (i, []) ↔ decodeByte c m b = i := by
  simp [decode]

/-- R184, R185 as cases on the indications. -/
theorem captureErrors_eq (ovr udr : Bool) (s : State) :
    captureErrors ovr udr s =
      { s with
        rxOverRunError := if ovr then true else s.rxOverRunError
        txUnderRunError := if udr then true else s.txUnderRunError } := by
  cases ovr <;> cases udr <;> simp [captureErrors]

/-- R162: with the cursor inside the buffer the byte there is emitted and the cursor advances. -/
theorem transmit_of_data {s : State} (mode : s.txMode = .data) (inRange : s.txCursor.toNat < s.cfg.maxFrameLen) :
    transmit s = .next
      (emit (Memory.read s.payload s.txCursor.toNat) { s with txCursor := nextTxCursor s.cfg s.txCursor }) := by
  have loaded := payloadLoad_eq_some.mpr ⟨inRange, rfl⟩
  simp only [transmit, mode, transmitData, loaded]

/-! ### The statements about a step -/

/-- Settles O24: an invocation is its three steps, the decoding being that of the state after the capture, which
changes no mode. -/
theorem stepRunsDecodedInstruction : Obligations.StepRunsDecodedInstruction := by
  intro s
  refine ⟨?_, ?_, step_of_nil⟩
  · intro snap rest b i pending carried decoded _
    have row : decodeByte s.cfg (decodeMode s) b = i := decode_singleton_eq_ok.mp decoded
    rw [step_of_cons pending, ← row, runEvent, invoke, carried]
    rfl
  · intro snap rest pending silent
    rw [step_of_cons pending, runEvent, invoke, silent]
    rfl

/-- Settles O25: with neither a byte nor a request the invocation is its capture. -/
theorem errorIndicationsAreSticky : Obligations.ErrorIndicationsAreSticky := by
  intro s snap rest pending silent notReady
  rw [step_of_cons pending, runEvent, invoke, silent, notReady, receiveIfPresent, andThen_next, transmitIfReady,
    captureErrors_eq]
  rfl

/-- Settles O27: the transmit step in DATA mode, whose cursor `nextTxCursor_toNat` counts. -/
theorem transmitInDataModeWraps : Obligations.TransmitInDataModeWraps := by
  intro s rest pending mode valid inRange
  have sent := transmit_of_data (s := { s with events := rest }) mode inRange
  rw [step_of_cons pending, runEvent_txEvent]
  exact ⟨_, sent, rfl, nextTxCursor_toNat valid inRange⟩

/-- Settles O29: with nothing indicated the invocation is its receive step and then its transmit step. -/
theorem pairIsReceiveThenTransmit : Obligations.PairIsReceiveThenTransmit := by
  intro s b
  have second : runEvents [txEvent] = transmit := by
    funext u
    rw [runEvents_cons, runEvent_txEvent]
    exact andThen_pure _
  rw [runEvents_cons, runEvent_rxEvent, second]
  show andThen (receive b (captureErrors false false s)) transmit = _
  rw [captureErrors_false]

/-! ### Reset -/

/-- The contents given to a reset read back, as far as the buffer reaches. -/
theorem read_resetWith {c : Cfg} {contents : List Byte} {i : Nat} (given : i < contents.length)
    (inRange : i < c.maxFrameLen) : Memory.read (State.resetWith c contents).payload i = contents[i] := by
  have stored : i < (contents.take c.maxFrameLen).length := by simp [given, inRange]
  have back := Memory.read_writeList (size := c.maxFrameLen) (a := 0) (m := []) (contents.take c.maxFrameLen) rfl
    (by simp) i stored
  rwa [Nat.zero_add, List.getElem_take] at back

/-- Settles O37: the registers as `State.resetWith` lists them, the buffer by `read_resetWith`. -/
theorem resetLeavesInitialValues : Obligations.ResetLeavesInitialValues := by
  constructor
  · intro c contents
    refine ⟨rfl, rfl, rfl, rfl, rfl, rfl, rfl, rfl, rfl, rfl, rfl, rfl, rfl, rfl, rfl, rfl, rfl, rfl, rfl, rfl, rfl, ?_⟩
    intro i given inRange
    exact read_resetWith given inRange
  · intro s contents rest pending
    rw [step_of_cons pending]
    rfl

/-! ### The schedule is an input

No operation reads the schedule or the bytes emitted: with other values of the two fields it does the same. -/

/-- The state with its log of emitted bytes and its schedule changed. -/
def State.mapOutside (log : List Byte → List Byte) (plan : List Event → List Event) (s : State) : State :=
  { s with emitted := log s.emitted, events := plan s.events }

/-- An answer with its next state changed. -/
def mapNext (f : State → State) (r : Result) : Result := andThen r fun s => .next (f s)

@[simp] theorem mapNext_next (f : State → State) (s : State) : mapNext f (.next s) = .next (f s) := rfl

/-- Where two steps each commute with a change of the state, so does their sequence. -/
theorem andThen_mapNext {f : State → State} {r : Result} {k k' : State → Result}
    (commutes : ∀ u, k' (f u) = mapNext f (k u)) : andThen (mapNext f r) k' = mapNext f (andThen r k) := by
  cases r with
  | next u => exact commutes u
  | fault e => rfl
  | refused e => rfl

section
variable (log : List Byte → List Byte) (plan : List Event → List Event) (s : State)

theorem acquireLength_mapOutside (b : Byte) :
    acquireLength b (s.mapOutside log plan) = (acquireLength b s).mapOutside log plan := by
  unfold acquireLength
  rw [apply_ite (State.mapOutside log plan)]
  rfl

theorem countRead_mapOutside :
    countRead (s.mapOutside log plan) = mapNext (State.mapOutside log plan) (countRead s) := by
  cases hasLength : s.length with
  | none => simp only [countRead, State.mapOutside, hasLength]; rfl
  | some len =>
    rw [countRead_of_length hasLength, countRead_of_length (s := s.mapOutside log plan) hasLength, mapNext_next,
      apply_ite (State.mapOutside log plan)]
    rfl

theorem payloadStore_mapOutside (i : Nat) (b : Byte) :
    payloadStore i b (s.mapOutside log plan) = (payloadStore i b s).map (State.mapOutside log plan) := by
  unfold payloadStore
  rw [apply_ite (Option.map (State.mapOutside log plan))]
  rfl

theorem storeWrite_mapOutside (b : Byte) :
    storeWrite b (s.mapOutside log plan) = mapNext (State.mapOutside log plan) (storeWrite b s) := by
  have length : (s.mapOutside log plan).length = s.length := rfl
  have cursor : (s.mapOutside log plan).wrCursor = s.wrCursor := rfl
  unfold storeWrite
  rw [length, cursor, payloadStore_mapOutside]
  cases s.length with
  | none => rfl
  | some len =>
    cases payloadStore s.wrCursor.toNat b s with
    | none => rfl
    | some t =>
      dsimp only [Option.map_some, mapNext_next, countWrite]
      rw [apply_ite (State.mapOutside log plan)]
      rfl

theorem execSyncByte_mapOutside (pattern low : Nibble) :
    execSyncByte pattern low (s.mapOutside log plan) =
      mapNext (State.mapOutside log plan) (execSyncByte pattern low s) := by
  unfold execSyncByte
  rw [apply_ite (mapNext (State.mapOutside log plan))]
  rfl

/-- No row reads the two fields. -/
theorem exec_mapOutside (i : Instr) :
    exec i (s.mapOutside log plan) = mapNext (State.mapOutside log plan) (exec i s) := by
  cases i with
  | winit byte | rinit byte =>
    cases byte with
    | lenLow b => exact congrArg Host.Outcome.next (acquireLength_mapOutside log plan s b)
    | ctrl _ | addrHi _ | addrLo _ => rfl
  | rdata byte =>
    cases byte with
    | data b => exact countRead_mapOutside log plan s
    | ctrl x =>
      cases hasLength : s.length with
      | none =>
        rw [exec_rdata_ctrl_of_none hasLength, exec_rdata_ctrl_of_none (s := s.mapOutside log plan) hasLength]
        rfl
      | some len =>
        have committed : s.length.isSome := by simp [hasLength]
        rw [exec_rdata_ctrl committed, exec_rdata_ctrl (s := s.mapOutside log plan) committed]
        rfl
  | wdata byte =>
    cases byte with
    | data b => exact storeWrite_mapOutside log plan s b
    | ctrl x =>
      cases hasLength : s.length with
      | none =>
        rw [exec_wdata_ctrl_of_none hasLength, exec_wdata_ctrl_of_none (s := s.mapOutside log plan) hasLength]
        rfl
      | some len =>
        have committed : s.length.isSome := by simp [hasLength]
        rw [exec_wdata_ctrl committed, exec_wdata_ctrl (s := s.mapOutside log plan) committed]
        rfl
  | dataAccessNoLength x => rfl
  | status byte => cases byte <;> rfl
  | ignoredByte high low => rfl
  | syncByte pattern low => exact execSyncByte_mapOutside log plan s pattern low

theorem receive_mapOutside (b : Byte) :
    receive b (s.mapOutside log plan) = mapNext (State.mapOutside log plan) (receive b s) :=
  exec_mapOutside log plan s _

end

/-- The state with another schedule. -/
def State.withEvents (events : List Event) (s : State) : State := { s with events := events }

section
variable (events : List Event) (s : State)

theorem receive_withEvents (b : Byte) :
    receive b (s.withEvents events) = mapNext (State.withEvents events) (receive b s) :=
  receive_mapOutside id (fun _ => events) s b

theorem transmit_withEvents : transmit (s.withEvents events) = mapNext (State.withEvents events) (transmit s) := by
  have mode : (s.withEvents events).txMode = s.txMode := rfl
  have loaded : payloadLoad s.txCursor.toNat (s.withEvents events) = payloadLoad s.txCursor.toNat s := rfl
  have cursor : (s.withEvents events).txCursor = s.txCursor := rfl
  unfold transmit transmitData
  rw [mode, cursor, loaded]
  cases s.txMode with
  | data => cases payloadLoad s.txCursor.toNat s <;> rfl
  | idle | status => rfl

theorem invoke_withEvents (snap : Snapshot) :
    invoke snap (s.withEvents events) = mapNext (State.withEvents events) (invoke snap s) := by
  have received : receiveIfPresent snap.rx (captureErrors snap.ovr snap.udr (s.withEvents events)) =
      mapNext (State.withEvents events) (receiveIfPresent snap.rx (captureErrors snap.ovr snap.udr s)) := by
    cases snap.rx with
    | none => rfl
    | some b => exact receive_withEvents events (captureErrors snap.ovr snap.udr s) b
  rw [invoke, received, invoke]
  refine andThen_mapNext fun u => ?_
  cases ready : snap.txReady
  · rfl
  · exact transmit_withEvents events u

theorem payloadStore_withEvents (i : Nat) (b : Byte) :
    payloadStore i b (s.withEvents events) = (payloadStore i b s).map (State.withEvents events) :=
  payloadStore_mapOutside id (fun _ => events) s i b

theorem dispatcherAccess_withEvents (answer : RegAnswer) :
    dispatcherAccess answer (s.withEvents events) = mapNext (State.withEvents events) (dispatcherAccess answer s) := by
  have place : (s.withEvents events).disp = s.disp := rfl
  have length : (s.withEvents events).length = s.length := rfl
  have address : (s.withEvents events).address = s.address := rfl
  unfold dispatcherAccess
  rw [place]
  cases s.disp with
  | readLength | writeLength =>
    unfold withLength
    rw [length]
    cases s.length <;> rfl
  | readAddress len | writeAddress len =>
    unfold withAddress
    rw [address]
    cases s.address <;> rfl
  | regRead len addr =>
    unfold callRegRead
    dsimp only
    rw [apply_ite (mapNext (State.withEvents events))]
    rfl
  | storePayload index bytes failed =>
    cases bytes with
    | nil => rfl
    | cons b rest =>
      dsimp only [dispatcherStore]
      rw [payloadStore_withEvents]
      cases payloadStore index b s <;> rfl
  | loadPayload len addr got =>
    have loaded : payloadLoad got.length (s.withEvents events) = payloadLoad got.length s := rfl
    dsimp only [dispatcherLoad]
    rw [loaded]
    cases payloadLoad got.length s <;> rfl
  | _ => rfl

/-- R12, R13: what an event does does not depend on what comes after it. -/
theorem runEvent_withEvents (e : Event) :
    runEvent e (s.withEvents events) = mapNext (State.withEvents events) (runEvent e s) := by
  cases e with
  | invoke snap => exact invoke_withEvents events s snap
  | main answer => exact dispatcherAccess_withEvents events s answer
  | reset contents => rfl

end

/-- The host's run, one step first. -/
theorem core_run_of_step {n : Nat} {s u : State} (stepped : step s = .next u) :
    Sys2Proof.core.run (n + 1) s = Sys2Proof.core.run n u := by
  have ofCore : Sys2Proof.core.step s = .next u := stepped
  simp only [Host.Core.run, ofCore]

/-- Settles O41: one step delivers the first event and leaves the others scheduled, by induction on the list. -/
theorem stepsDeliverTheSchedule : Obligations.StepsDeliverTheSchedule := by
  intro es rest
  induction es with
  | nil =>
    intro s t ran
    cases ran
    rfl
  | cons e es ih =>
    intro s t ran
    rw [runEvents_cons] at ran
    obtain ⟨u, delivered, onward⟩ := andThen_eq_next.mp ran
    have stepped : step (s.withEvents (e :: es ++ rest)) = .next (u.withEvents (es ++ rest)) := by
      rw [step_of_cons (rest := es ++ rest) rfl]
      exact (runEvent_withEvents (es ++ rest) s e).trans (by rw [delivered, mapNext_next])
    exact (core_run_of_step stepped).trans (ih u t onward)

end Sys2Proof.Machine
end

section
/-! PROOFS. What a received byte, a transmit step and an access of the dispatcher can do, said once each as the cases of a
relation (40_frame_decoder.md R110 to R127, 42_transmit_sequencer.md R160 to R163, 43_dispatcher.md R175), and which
fields each event may change. -/

namespace Sys2Proof.Machine

/-! ### The receive step -/

/-- What receiving `b` in `s` can leave, with what it tells of `s` (R110 to R123). -/
inductive Received (b : Byte) (s : State) : State → Prop
  | ignored (here : s.state = .awaitControl) : Received b s s
  | initStarted (direction : Bool) (x : Field2) (here : s.state = .awaitControl)
      (row : decodeByte s.cfg (decodeMode s) b = initInstr direction (.ctrl x)) : Received b s (startInit direction s)
  | readStarted (here : s.state = .awaitControl) (hasLength : s.length.isSome) : Received b s (startRead s)
  | writeStarted (here : s.state = .awaitControl) (hasLength : s.length.isSome) : Received b s (startWrite s)
  | statusStarted (x : Field2) (here : s.state = .awaitControl)
      (row : decodeByte s.cfg (decodeMode s) b = .status (.ctrl x)) : Received b s (startStatus s)
  | syncAccepted (here : s.state = .awaitSync) : Received b s (acceptSync (lowNibble b) s)
  | syncRefused (here : s.state = .awaitSync) : Received b s (abandonFrame s)
  | lengthCommitted (here : s.state = .awaitLenLow) (legal : legalLength s.cfg (lengthCandidate s.lenHi b)) :
      Received b s { s with length := some (lengthCandidate s.lenHi b), state := .awaitAddrHi }
  | lengthRefused (here : s.state = .awaitLenLow) : Received b s (abandonFrame s)
  | addressHeld (here : s.state = .awaitAddrHi) : Received b s (acquireAddrHi b s)
  | addressCommitted (here : s.state = .awaitAddrLo) : Received b s (acquireAddrLo b s)
  | readCounted (len : Word16) (here : s.state = .transferRead) (hasLength : s.length = some len)
      (more : s.rdCursor + 1 ≠ len) : Received b s { s with rdCursor := s.rdCursor + 1 }
  | readEnded (len : Word16) (here : s.state = .transferRead) (hasLength : s.length = some len)
      (last : s.rdCursor + 1 = len) :
      Received b s { s with rdCursor := s.rdCursor + 1, txMode := .idle, state := .awaitControl }
  | writeStored (len : Word16) (here : s.state = .transferWrite) (hasLength : s.length = some len)
      (inRange : s.wrCursor.toNat < s.cfg.maxFrameLen) (more : s.wrCursor + 1 ≠ len) :
      Received b s
        { s with payload := Memory.write s.payload s.wrCursor.toNat b, wrCursor := s.wrCursor + 1 }
  | writeEnded (len : Word16) (here : s.state = .transferWrite) (hasLength : s.length = some len)
      (inRange : s.wrCursor.toNat < s.cfg.maxFrameLen) (last : s.wrCursor + 1 = len) :
      Received b s
        { s with
          payload := Memory.write s.payload s.wrCursor.toNat b
          wrCursor := s.wrCursor + 1, writeDataReq := true, state := .awaitControl }
  | statusEnded (here : s.state = .awaitStatusSent) : Received b s (endStatus s)

/-- R111: the rows of `AWAIT_CONTROL`. -/
theorem received_of_control {b : Byte} {s t : State} (here : s.state = .awaitControl)
    (received : receive b s = .next t) : Received b s t := by
  have row : decodeByte s.cfg (decodeMode s) b = decodeControl s.cfg (decodeMode s) b :=
    decodeByte_of_awaitControl here _ _
  rw [receive, row] at received
  unfold decodeControl at row received
  split_ifs at row received
  · cases received
    exact .initStarted false _ here row
  · cases received
    exact .initStarted true _ here row
  · obtain ⟨hasLength, rfl⟩ := exec_rdata_ctrl_eq_next received
    exact .readStarted here hasLength
  · obtain ⟨hasLength, rfl⟩ := exec_wdata_ctrl_eq_next received
    exact .writeStarted here hasLength
  · cases received
  · cases received
    exact .statusStarted _ here row
  · cases received
    exact .ignored here

theorem received_of_receive {b : Byte} {s t : State} (received : receive b s = .next t) : Received b s t := by
  cases here : s.state with
  | awaitControl => exact received_of_control here received
  | awaitSync =>
    simp only [receive_of_state, here] at received
    obtain ⟨_, accepted⟩ | ⟨_, refused⟩ := execSyncByte_cases (highNibble b) (lowNibble b) s
    · cases accepted.symm.trans received
      exact .syncAccepted here
    · cases refused.symm.trans received
      exact .syncRefused here
  | awaitLenLow =>
    simp only [receive_of_state, here] at received
    cases received
    obtain ⟨legal, committed⟩ | ⟨_, refused⟩ := acquireLength_cases b s
    · exact committed ▸ .lengthCommitted here legal
    · exact refused ▸ .lengthRefused here
  | awaitAddrHi =>
    simp only [receive_of_state, here] at received
    cases received
    exact .addressHeld here
  | awaitAddrLo =>
    simp only [receive_of_state, here] at received
    cases received
    exact .addressCommitted here
  | transferRead =>
    simp only [receive_of_state, here] at received
    obtain ⟨len, hasLength, ⟨last, rfl⟩ | ⟨more, rfl⟩⟩ := countRead_eq_next received
    · exact .readEnded len here hasLength last
    · exact .readCounted len here hasLength more
  | transferWrite =>
    simp only [receive_of_state, here] at received
    obtain ⟨len, hasLength, inRange, ⟨last, rfl⟩ | ⟨more, rfl⟩⟩ := storeWrite_eq_next received
    · exact .writeEnded len here hasLength inRange last
    · exact .writeStored len here hasLength inRange more
  | awaitStatusSent =>
    simp only [receive_of_state, here] at received
    cases received
    exact .statusEnded here

/-! ### The invocation -/

/-- R160: the transmit step writes the log, the mode and the transmit cursor alone. -/
theorem transmitIfReady_frame {ready : Bool} {u t : State} (sent : transmitIfReady ready u = .next t) :
    ∃ emitted mode cursor, t = { u with emitted := emitted, txMode := mode, txCursor := cursor } := by
  cases ready with
  | false => cases sent; exact ⟨_, _, _, rfl⟩
  | true => obtain ⟨_, rfl⟩ | ⟨_, _, rfl⟩ | ⟨_, rfl⟩ := transmit_eq_next sent <;> exact ⟨_, _, _, rfl⟩

/-- R191: an invocation receives its byte, if it carries one, in the state after the capture, and then writes the log, the
mode and the transmit cursor at most. -/
theorem invoke_cases {snap : Snapshot} {s t : State} (invoked : invoke snap s = .next t) :
    ∃ u emitted mode cursor,
      (snap.rx = none ∧ u = captureErrors snap.ovr snap.udr s ∨
        ∃ b, snap.rx = some b ∧ Received b (captureErrors snap.ovr snap.udr s) u) ∧
      t = { u with emitted := emitted, txMode := mode, txCursor := cursor } := by
  obtain ⟨u, received, sent⟩ := invoke_eq_next invoked
  obtain ⟨emitted, mode, cursor, frame⟩ := transmitIfReady_frame sent
  refine ⟨u, emitted, mode, cursor, ?_, frame⟩
  cases carried : snap.rx with
  | none =>
    rw [carried] at received
    cases received
    exact .inl ⟨rfl, rfl⟩
  | some b =>
    rw [carried] at received
    exact .inr ⟨b, rfl, received_of_receive received⟩

/-! ### An access of the dispatcher -/

/-- What an access of the dispatcher can leave, with what it tells of its place (R175). -/
inductive Accessed (s : State) : State → Prop
  | moved (next : DispPc) : Accessed s { s with disp := next }
  | called (call : RegCall) (next : DispPc) : Accessed s { s with regCalls := s.regCalls ++ [call], disp := next }
  | stored (index : Nat) (b : Byte) (rest : List Byte) (failed : Bool)
      (place : s.disp = .storePayload index (b :: rest) failed) (inRange : index < s.cfg.maxFrameLen) (next : DispPc) :
      Accessed s { s with payload := Memory.write s.payload index b, disp := next }
  | readErrorAssigned (failed : Bool) (place : s.disp = .writeReadError failed) (next : DispPc) :
      Accessed s { s with readRegError := failed, disp := next }
  | readRequestCleared (place : s.disp = .clearReadReq) (next : DispPc) :
      Accessed s { s with readDataReq := false, disp := next }
  | readReadySet (place : s.disp = .setReadReady) (next : DispPc) :
      Accessed s { s with readDataReady := true, disp := next }
  | writeErrorAssigned (failed : Bool) (place : s.disp = .writeWriteError failed) (next : DispPc) :
      Accessed s { s with writeRegError := failed, disp := next }
  | writeRequestCleared (place : s.disp = .clearWriteReq) (next : DispPc) :
      Accessed s { s with writeDataReq := false, disp := next }
  | writeCompleteSet (place : s.disp = .setWriteComplete) (next : DispPc) :
      Accessed s { s with writeDataComplete := true, disp := next }

theorem withLength_eq_next {s t : State} {f : Word16 → Result} (h : withLength s f = .next t) :
    ∃ len, s.length = some len ∧ f len = .next t := by
  unfold withLength at h
  split at h
  · cases h
  · next len hasLength => exact ⟨len, hasLength, h⟩

theorem withAddress_eq_next {s t : State} {f : Word16 → Result} (h : withAddress s f = .next t) :
    ∃ addr, s.address = some addr ∧ f addr = .next t := by
  unfold withAddress at h
  split at h
  · cases h
  · next addr hasAddress => exact ⟨addr, hasAddress, h⟩

theorem accessed_of_dispatcherAccess {answer : RegAnswer} {s t : State}
    (accessed : dispatcherAccess answer s = .next t) : Accessed s t := by
  unfold dispatcherAccess at accessed
  cases place : s.disp <;> simp only [place] at accessed
  case readLength | writeLength =>
    obtain ⟨len, _, read⟩ := withLength_eq_next accessed
    cases read
    exact .moved _
  case readAddress len | writeAddress len =>
    obtain ⟨addr, _, read⟩ := withAddress_eq_next accessed
    cases read
    exact .moved _
  case regRead len addr =>
    obtain ⟨_, rfl⟩ := callRegRead_eq_next accessed
    exact .called _ _
  case storePayload index bytes failed =>
    cases bytes with
    | nil => cases accessed; exact .moved _
    | cons b rest =>
      obtain ⟨inRange, rfl⟩ := dispatcherStore_eq_next accessed
      exact .stored index b rest failed place inRange _
  case loadPayload len addr got =>
    obtain ⟨_, rfl⟩ := dispatcherLoad_eq_next accessed
    exact .moved _
  case idle | testWriteReq => cases accessed; exact .moved _
  case regWrite len addr bytes => cases accessed; exact .called _ _
  case writeReadError failed => cases accessed; exact .readErrorAssigned failed place _
  case clearReadReq => cases accessed; exact .readRequestCleared place _
  case setReadReady => cases accessed; exact .readReadySet place _
  case writeWriteError failed => cases accessed; exact .writeErrorAssigned failed place _
  case clearWriteReq => cases accessed; exact .writeRequestCleared place _
  case setWriteComplete => cases accessed; exact .writeCompleteSet place _

/-! ### Which received byte changes a field -/

section
variable {b : Byte} {s u : State} (received : Received b s u)
include received

/-- R6. -/
theorem Received.cfg_eq : u.cfg = s.cfg := by cases received <;> rfl

theorem Received.disp_eq : u.disp = s.disp := by cases received <;> rfl

theorem Received.regCalls_eq : u.regCalls = s.regCalls := by cases received <;> rfl

theorem Received.events_eq : u.events = s.events := by cases received <;> rfl

/-- R23: `direction` is the latch of an INIT control byte. -/
theorem Received.of_direction_changed (changed : u.direction ≠ s.direction) :
    s.state = .awaitControl ∧ ∃ x, decodeByte s.cfg (decodeMode s) b = .winit (.ctrl x) ∨
      decodeByte s.cfg (decodeMode s) b = .rinit (.ctrl x) := by
  cases received with
  | initStarted direction x here row =>
    cases direction
    · exact ⟨here, x, .inl row⟩
    · exact ⟨here, x, .inr row⟩
  | _ => exact absurd rfl changed

/-- R25, R118. -/
theorem Received.of_length_changed (changed : u.length ≠ s.length) :
    s.state = .awaitLenLow ∧ u.length = some (lengthCandidate s.lenHi b) ∧
      legalLength s.cfg (lengthCandidate s.lenHi b) := by
  cases received with
  | lengthCommitted here legal => exact ⟨here, rfl, legal⟩
  | _ => exact absurd rfl changed

/-- R27, R120. -/
theorem Received.of_address_changed (changed : u.address ≠ s.address) :
    s.state = .awaitAddrLo ∧ u.address = some (addressFrom s.addrHi b) := by
  cases received with
  | addressCommitted here => exact ⟨here, rfl⟩
  | _ => exact absurd rfl changed

/-- R121: the one store of the receive step. -/
theorem Received.of_payload_changed (changed : u.payload ≠ s.payload) :
    s.state = .transferWrite ∧ s.wrCursor.toNat < s.cfg.maxFrameLen ∧
      u.payload = Memory.write s.payload s.wrCursor.toNat b := by
  cases received with
  | writeStored len here hasLength inRange more => exact ⟨here, inRange, rfl⟩
  | writeEnded len here hasLength inRange last => exact ⟨here, inRange, rfl⟩
  | _ => exact absurd rfl changed

/-- R120: a read's request is raised by the byte that commits its address. -/
theorem Received.of_readDataReq_changed (changed : u.readDataReq ≠ s.readDataReq) :
    u.readDataReq = true ∧ s.state = .awaitAddrLo ∧ s.direction = true := by
  cases received with
  | addressCommitted here =>
    cases latch : s.direction with
    | true => exact ⟨by simp [latch], here, rfl⟩
    | false => exact absurd (by simp [latch]) changed
  | _ => exact absurd rfl changed

/-- R121: a write's request is raised by the byte that completes its data. -/
theorem Received.of_writeDataReq_changed (changed : u.writeDataReq ≠ s.writeDataReq) :
    u.writeDataReq = true ∧ s.state = .transferWrite ∧ s.length = some (s.wrCursor + 1) := by
  cases received with
  | writeEnded len here hasLength inRange last => exact ⟨rfl, here, last ▸ hasLength⟩
  | _ => exact absurd rfl changed

end

/-! ### The six status flags -/

/-- The six status flags, in the order of their bits (R150). -/
def statusFlags (s : State) : List Bool :=
  [s.readDataReady, s.writeDataComplete, s.rxOverRunError, s.txUnderRunError, s.writeRegError, s.readRegError]

/-- R151: a byte clears all six, as a STATUS_READ control byte, or leaves all six. -/
theorem Received.statusFlags_cases {b : Byte} {s u : State} (received : Received b s u) :
    (s.state = .awaitControl ∧ (∃ x, decodeByte s.cfg (decodeMode s) b = .status (.ctrl x)) ∧
      statusFlags u = [false, false, false, false, false, false]) ∨
    statusFlags u = statusFlags s := by
  cases received with
  | statusStarted x here row => exact .inl ⟨here, ⟨x, row⟩, rfl⟩
  | _ => exact .inr rfl

/-! ### The statements -/

/-- Settles O36: no part of an event writes the configuration. -/
theorem configurationIsFixed : Obligations.ConfigurationIsFixed := by
  intro s t stepped
  cases pending : s.events with
  | nil => rw [step_of_nil pending] at stepped; cases stepped; rfl
  | cons e rest =>
    rw [step_of_cons pending] at stepped
    cases e with
    | reset contents => cases stepped; rfl
    | main answer => cases accessed_of_dispatcherAccess stepped <;> rfl
    | invoke snap =>
      obtain ⟨u, _, _, _, ⟨_, rfl⟩ | ⟨b, _, received⟩, rfl⟩ := invoke_cases stepped
      · rfl
      · exact received.cfg_eq

/-- Settles O31: an access moves the dispatcher only, and an invocation with no byte leaves the state that its capture and
its transmit step do not write. -/
theorem stateMovesOnlyOnReceivedByte : Obligations.StateMovesOnlyOnReceivedByte := by
  intro s t stepped moved
  cases pending : s.events with
  | nil => rw [step_of_nil pending] at stepped; cases stepped; exact absurd rfl moved
  | cons e rest =>
    rw [step_of_cons pending] at stepped
    cases e with
    | reset contents => exact .inr ⟨contents, rest, rfl⟩
    | main answer => cases accessed_of_dispatcherAccess stepped <;> exact absurd rfl moved
    | invoke snap =>
      obtain ⟨u, _, _, _, ⟨_, rfl⟩ | ⟨b, carried, _⟩, rfl⟩ := invoke_cases stepped
      · exact absurd rfl moved
      · exact .inl ⟨snap, rest, b, rfl, carried⟩

/-- Settles O32: of the three kinds of event only an invocation with a byte changes one of the fields, and then
`Received` tells which byte it was. -/
theorem frameFieldsHaveOneWriter : Obligations.FrameFieldsHaveOneWriter := by
  intro s t e rest pending notReset stepped
  rw [step_of_cons pending] at stepped
  cases e with
  | reset contents => exact absurd rfl (notReset contents)
  | main answer =>
    cases accessed_of_dispatcherAccess stepped <;>
      exact ⟨fun changed => absurd rfl changed, fun changed => absurd rfl changed, fun changed => absurd rfl changed⟩
  | invoke snap =>
    obtain ⟨u, _, _, _, ⟨_, rfl⟩ | ⟨b, carried, received⟩, rfl⟩ := invoke_cases stepped
    · exact ⟨fun changed => absurd rfl changed, fun changed => absurd rfl changed, fun changed => absurd rfl changed⟩
    · refine ⟨fun changed => ?_, fun changed => ?_, fun changed => ?_⟩
      · obtain ⟨here, x, row⟩ := received.of_direction_changed changed
        exact ⟨snap, b, x, rfl, carried, here, row⟩
      · obtain ⟨here, committed, legal⟩ := received.of_length_changed changed
        exact ⟨snap, b, _, rfl, carried, here, committed, lengthCandidate_toNat s.lenHi b, legal⟩
      · obtain ⟨here, committed⟩ := received.of_address_changed changed
        exact ⟨snap, b, rfl, carried, here, committed.trans (by rw [addressFrom_eq_ofNat]; rfl)⟩

/-- Settles O33: the one store of a received byte, and the one store of an access. -/
theorem bufferHasTwoWriters : Obligations.BufferHasTwoWriters := by
  intro s t e rest pending notReset stepped changed
  rw [step_of_cons pending] at stepped
  cases e with
  | reset contents => exact absurd rfl (notReset contents)
  | main answer =>
    cases accessed_of_dispatcherAccess stepped with
    | stored index b more failed place inRange next => exact .inr ⟨answer, index, b, more, failed, rfl, place, inRange, rfl⟩
    | _ => exact absurd rfl changed
  | invoke snap =>
    obtain ⟨u, _, _, _, ⟨_, rfl⟩ | ⟨b, carried, received⟩, rfl⟩ := invoke_cases stepped
    · exact absurd rfl changed
    · exact .inl ⟨snap, b, rfl, carried, received.of_payload_changed changed⟩

/-- Settles O34: the cases of `Accessed`; each writes one field besides the dispatcher's place. -/
theorem mainContextKeepsBlockRegisters : Obligations.MainContextKeepsBlockRegisters := by
  intro s t answer rest pending stepped
  rw [step_of_cons pending] at stepped
  have accessed := accessed_of_dispatcherAccess stepped
  constructor
  · cases accessed <;> rfl
  · cases accessed with
    | moved | called | stored => simp
    | readErrorAssigned _ place | readRequestCleared place | readReadySet place | writeErrorAssigned _ place
      | writeRequestCleared place | writeCompleteSet place =>
      have place : s.disp = _ := place
      simp [place]

/-- Settles O35: with no byte an invocation writes the two error flags its snapshot indicates; with one, the requests by
`Received` and the six status flags together by `Received.statusFlags_cases`. -/
theorem invocationKeepsDispatcherFlags : Obligations.InvocationKeepsDispatcherFlags := by
  intro s t snap rest pending stepped
  rw [step_of_cons pending] at stepped
  obtain ⟨u, _, _, _, ⟨_, rfl⟩ | ⟨b, carried, received⟩, rfl⟩ := invoke_cases stepped
  · simp +contextual
  · refine ⟨fun changed => ?_, fun changed => ?_, ?_⟩
    · obtain ⟨raised, here, latch⟩ := received.of_readDataReq_changed changed
      exact ⟨raised, here, latch, by simp [carried]⟩
    · obtain ⟨raised, here, last⟩ := received.of_writeDataReq_changed changed
      exact ⟨raised, here, last, by simp [carried]⟩
    · have onward := And.intro received.disp_eq (And.intro received.regCalls_eq received.events_eq)
      obtain ⟨here, ⟨x, row⟩, cleared⟩ | kept := received.statusFlags_cases
      · simp only [statusFlags, List.cons.injEq, and_true] at cleared
        obtain ⟨ready, complete, overrun, underrun, writeError, readError⟩ := cleared
        simp only [ready, complete, overrun, underrun, writeError, readError]
        exact ⟨nofun, nofun, nofun, nofun, nofun, nofun,
          fun _ => ⟨here, ⟨b, x, carried, row⟩, by simp⟩, onward⟩
      · simp only [statusFlags, List.cons.injEq, and_true] at kept
        obtain ⟨ready, complete, overrun, underrun, writeError, readError⟩ := kept
        simp only [ready, complete, overrun, underrun, writeError, readError]
        simp +contextual [onward]

end Sys2Proof.Machine
end

section
/-! PROOFS. The invariant (10_state.md R44): it holds after a reset, every part of an event keeps it, and under it the
machine stops in the two ways the statements name and no other. -/

namespace Sys2Proof.Machine

/-! ### The dispatcher's locals -/

/-- The locals stay in range where the place and the capacity stay and no value is lost. -/
theorem DispInv.of_values {s t : State} (locals : DispInv s) (place : t.disp = s.disp) (cfg : t.cfg = s.cfg)
    (length : s.length.isSome → t.length.isSome) (address : s.address.isSome → t.address.isSome) : DispInv t := by
  revert locals
  unfold DispInv
  rw [place, cfg]
  cases s.disp with
  | readLength | writeLength => exact fun ⟨hasLength, hasAddress⟩ => ⟨length hasLength, address hasAddress⟩
  | readAddress len | writeAddress len => exact fun ⟨hasAddress, legal⟩ => ⟨address hasAddress, legal⟩
  | _ => exact id

theorem dispInv_of_afterStores {t : State} {index : Nat} {rest : List Byte} {failed : Bool}
    (place : t.disp = afterStores index rest failed) (fits : index + rest.length ≤ t.cfg.maxFrameLen) : DispInv t := by
  unfold DispInv
  rw [place]
  cases rest with
  | nil => trivial
  | cons b rest => exact fits

theorem dispInv_of_afterLoads {t : State} {len addr : Word16} {got : List Byte}
    (place : t.disp = afterLoads len addr got) (fits : len.toNat ≤ t.cfg.maxFrameLen) : DispInv t := by
  unfold DispInv
  rw [place, afterLoads]
  by_cases more : got.length < len.toNat
  · rw [if_pos more]
    exact ⟨more, fits⟩
  · rw [if_neg more]
    trivial

/-! ### What the invariant tells in a state -/

section
variable {s : State} (h : Inv s)
include h

theorem Inv.hasAddress (here : s.state = .awaitControl) (hasLength : s.length.isSome) : s.address.isSome :=
  h.addressCommitted hasLength (by simp [here]) (by simp [here])

/-- R44 (c) and (a): the write cursor lies in the buffer. -/
theorem Inv.writeCursor_lt (here : s.state = .transferWrite) :
    ∃ len, s.length = some len ∧ s.wrCursor.toNat < len.toNat ∧ s.wrCursor.toNat < s.cfg.maxFrameLen := by
  obtain ⟨len, committed, below⟩ := h.writeInRange here
  exact ⟨len, committed, below, below.trans_le (h.lengthLegal len committed).2⟩

end

/-- R152: the bits of the status byte that no flag owns. -/
theorem statusMux_highBits (s : State) : (statusMux s).extractLsb' 6 2 = 0 := by
  have : ∀ a b c d e f : Bool,
      (flagBit a 0x01 ||| flagBit b 0x02 ||| flagBit c 0x04 ||| flagBit d 0x08 ||| flagBit e 0x10 |||
        flagBit f 0x20).extractLsb' 6 2 = 0 := by decide
  exact this _ _ _ _ _ _

/-! ### The receive step keeps the invariant -/

section
variable {s : State} (h : Inv s)
include h

theorem Inv.of_startInit (here : s.state = .awaitControl) (direction : Bool) : Inv (startInit direction s) :=
  { h with
    lengthCommitted := by simp
    addressCommitted := fun hasLength _ _ => h.hasAddress here hasLength
    writeInRange := nofun
    readInRange := nofun
    writeQueued := nofun
    readQueued := nofun }

theorem Inv.of_startRead (here : s.state = .awaitControl) (hasLength : s.length.isSome) : Inv (startRead s) := by
  obtain ⟨len, committed⟩ := Option.isSome_iff_exists.mp hasLength
  exact { h with
    lengthCommitted := by simp
    addressCommitted := fun hasLength _ _ => h.hasAddress here hasLength
    writeInRange := nofun
    readInRange := nofun
    writeQueued := nofun
    readQueued := fun _ _ => ⟨len, committed, (h.lengthLegal len committed).1⟩
    txInRange := h.cfgValid.2.1 }

theorem Inv.of_startWrite (here : s.state = .awaitControl) (hasLength : s.length.isSome) : Inv (startWrite s) := by
  obtain ⟨len, committed⟩ := Option.isSome_iff_exists.mp hasLength
  exact { h with
    lengthCommitted := by simp
    addressCommitted := fun hasLength _ _ => h.hasAddress here hasLength
    writeInRange := nofun
    readInRange := nofun
    writeQueued := fun _ _ => ⟨len, committed, (h.lengthLegal len committed).1⟩
    readQueued := nofun }

theorem Inv.of_startStatus (here : s.state = .awaitControl) : Inv (startStatus s) :=
  { h with
    lengthCommitted := by simp
    addressCommitted := fun hasLength _ _ => h.hasAddress here hasLength
    writeInRange := nofun
    readInRange := nofun
    writeQueued := nofun
    readQueued := nofun
    statusHighBits := statusMux_highBits s }

/-- R117: what was queued is what its state needs. -/
theorem Inv.of_acceptSync (here : s.state = .awaitSync) (low : Nibble) : Inv (acceptSync low s) :=
  { h with
    lengthCommitted := by cases queued : s.queued <;> simp [queued, Queued.target]
    addressCommitted := fun hasLength _ _ => h.addressCommitted hasLength (by simp [here]) (by simp [here])
    writeInRange := fun target => h.writeQueued here (by
      cases queued : s.queued <;> simp [queued, Queued.target] at target ⊢)
    readInRange := fun target => h.readQueued here (by
      cases queued : s.queued <;> simp [queued, Queued.target] at target ⊢)
    writeQueued := fun target => by cases queued : s.queued <;> simp [queued, Queued.target] at target
    readQueued := fun target => by cases queued : s.queued <;> simp [queued, Queued.target] at target }

/-- Outside address acquisition a return to `AWAIT_CONTROL` needs nothing. -/
theorem Inv.of_abandonFrame (notHi : s.state ≠ .awaitAddrHi) (notLo : s.state ≠ .awaitAddrLo) : Inv (abandonFrame s) :=
  { h with
    lengthCommitted := by simp
    addressCommitted := fun hasLength _ _ => h.addressCommitted hasLength notHi notLo
    writeInRange := nofun
    readInRange := nofun
    writeQueued := nofun
    readQueued := nofun }

theorem Inv.of_commitLength {len : Word16} (legal : legalLength s.cfg len) :
    Inv { s with length := some len, state := .awaitAddrHi } :=
  { h with
    lengthLegal := fun _ committed => Option.some.inj committed ▸ legal
    lengthCommitted := fun _ => rfl
    addressCommitted := fun _ notHi => absurd rfl notHi
    writeInRange := nofun
    readInRange := nofun
    writeQueued := nofun
    readQueued := nofun
    requestsServable := fun pending => ⟨rfl, (h.requestsServable pending).2⟩
    dispInv := h.dispInv.of_values rfl rfl (fun _ => rfl) id }

theorem Inv.of_acquireAddrHi (here : s.state = .awaitAddrHi) (b : Byte) : Inv (acquireAddrHi b s) :=
  { h with
    lengthCommitted := fun _ => h.lengthCommitted (.inl here)
    addressCommitted := fun _ _ notLo => absurd rfl notLo
    writeInRange := nofun
    readInRange := nofun
    writeQueued := nofun
    readQueued := nofun }

theorem Inv.of_acquireAddrLo (here : s.state = .awaitAddrLo) (b : Byte) : Inv (acquireAddrLo b s) :=
  { h with
    lengthCommitted := by simp
    addressCommitted := fun _ _ _ => rfl
    writeInRange := nofun
    readInRange := nofun
    writeQueued := nofun
    readQueued := nofun
    requestsServable := fun _ => ⟨h.lengthCommitted (.inr here), rfl⟩
    dispInv := h.dispInv.of_values rfl rfl id fun _ => rfl }

/-- R122, R125 (d): a cursor below the length that does not reach it stays below. -/
theorem Inv.of_countRead (here : s.state = .transferRead) {len : Word16} (committed : s.length = some len)
    (more : s.rdCursor + 1 ≠ len) : Inv { s with rdCursor := s.rdCursor + 1 } := by
  obtain ⟨len', committed', below⟩ := h.readInRange here
  cases committed.symm.trans committed'
  exact { h with
    readInRange := fun _ => ⟨len, committed, nextCursor_lt below more⟩
    readQueued := fun target => by simp [here] at target }

/-- The end of a frame in any state outside address acquisition, whatever it does to the cursors and the mode. -/
theorem Inv.of_endFrame (notHi : s.state ≠ .awaitAddrHi) (notLo : s.state ≠ .awaitAddrLo) (wr rd : Word16)
    (mode : TxMode) : Inv { s with wrCursor := wr, rdCursor := rd, txMode := mode, state := .awaitControl } :=
  { h with
    lengthCommitted := by simp
    addressCommitted := fun hasLength _ _ => h.addressCommitted hasLength notHi notLo
    writeInRange := nofun
    readInRange := nofun
    writeQueued := nofun
    readQueued := nofun }

theorem Inv.of_writePayload {i : Nat} (inRange : i < s.cfg.maxFrameLen) (b : Byte) :
    Inv { s with payload := Memory.write s.payload i b } :=
  { h with payloadWf := Memory.wf_write b h.payloadWf inRange }

/-- R121, R125 (d). -/
theorem Inv.of_countWrite (here : s.state = .transferWrite) {len : Word16} (committed : s.length = some len)
    (more : s.wrCursor + 1 ≠ len) : Inv { s with wrCursor := s.wrCursor + 1 } := by
  obtain ⟨len', committed', below⟩ := h.writeInRange here
  cases committed.symm.trans committed'
  exact { h with
    writeInRange := fun _ => ⟨len, committed, nextCursor_lt below more⟩
    writeQueued := fun target => by simp [here] at target }

theorem Inv.of_requestWrite (hasLength : s.length.isSome) (hasAddress : s.address.isSome) :
    Inv { s with writeDataReq := true } :=
  { h with requestsServable := fun _ => ⟨hasLength, hasAddress⟩ }

theorem Received.keeps_inv {b : Byte} {u : State} (received : Received b s u) : Inv u := by
  cases received with
  | ignored => exact h
  | initStarted direction x here => exact h.of_startInit here direction
  | readStarted here hasLength => exact h.of_startRead here hasLength
  | writeStarted here hasLength => exact h.of_startWrite here hasLength
  | statusStarted x here => exact h.of_startStatus here
  | syncAccepted here => exact h.of_acceptSync here _
  | syncRefused here => exact h.of_abandonFrame (by simp [here]) (by simp [here])
  | lengthCommitted here legal => exact h.of_commitLength legal
  | lengthRefused here => exact h.of_abandonFrame (by simp [here]) (by simp [here])
  | addressHeld here => exact h.of_acquireAddrHi here b
  | addressCommitted here => exact h.of_acquireAddrLo here b
  | readCounted len here hasLength more => exact h.of_countRead here hasLength more
  | readEnded len here => exact h.of_endFrame (by simp [here]) (by simp [here]) _ _ _
  | writeStored len here hasLength inRange more =>
    exact (h.of_writePayload inRange b).of_countWrite here hasLength more
  | writeEnded len here hasLength inRange =>
    have committed : s.length.isSome := by simp [hasLength]
    have address := h.addressCommitted committed (by simp [here]) (by simp [here])
    exact ((h.of_writePayload inRange b).of_requestWrite committed address).of_endFrame (by simp [here]) (by simp [here]) _ _ _
  | statusEnded here => exact h.of_endFrame (by simp [here]) (by simp [here]) _ _ _

end

/-! ### Every event keeps the invariant -/

section
variable {s : State} (h : Inv s)
include h

/-- The schedule plays no part. -/
theorem Inv.of_withEvents (events : List Event) : Inv { s with events := events } := { h with }

theorem Inv.of_captureErrors (ovr udr : Bool) : Inv (captureErrors ovr udr s) := { h with }

theorem Inv.of_transmit {t : State} (sent : transmit s = .next t) : Inv t := by
  obtain ⟨_, rfl⟩ | ⟨_, inRange, rfl⟩ | ⟨_, rfl⟩ := transmit_eq_next sent
  · exact { h with }
  · exact { h with txInRange := nextTxCursor_lt h.cfgValid inRange }
  · exact { h with }

theorem Inv.of_receive {b : Byte} {t : State} (received : receive b s = .next t) : Inv t :=
  Received.keeps_inv h (received_of_receive received)

theorem Inv.of_invoke {snap : Snapshot} {t : State} (invoked : invoke snap s = .next t) : Inv t := by
  obtain ⟨u, received, sent⟩ := invoke_eq_next invoked
  have kept : Inv u := by
    cases carried : snap.rx with
    | none => rw [carried] at received; cases received; exact h.of_captureErrors _ _
    | some b => rw [carried] at received; exact (h.of_captureErrors _ _).of_receive received
  cases ready : snap.txReady with
  | false => rw [ready] at sent; cases sent; exact kept
  | true => rw [ready] at sent; exact kept.of_transmit sent

/-- R175: each access leaves locals that the next one can use. -/
theorem Inv.dispInv_of_dispatcherAccess {answer : RegAnswer} {t : State} (accessed : dispatcherAccess answer s = .next t) :
    DispInv t := by
  have locals := h.dispInv
  unfold DispInv at locals
  unfold dispatcherAccess at accessed
  cases place : s.disp <;> simp only [place] at accessed locals
  case idle =>
    cases accessed
    cases pending : s.readDataReq with
    | false => simp [DispInv]
    | true => simpa [DispInv] using h.requestsServable (.inl pending)
  case testWriteReq =>
    cases accessed
    cases pending : s.writeDataReq with
    | false => simp [DispInv]
    | true => simpa [DispInv] using h.requestsServable (.inr pending)
  case readLength | writeLength =>
    obtain ⟨len, committed, read⟩ := withLength_eq_next accessed
    cases read
    exact ⟨locals.2, h.lengthLegal len committed⟩
  case readAddress len =>
    obtain ⟨addr, _, read⟩ := withAddress_eq_next accessed
    cases read
    exact locals.2
  case writeAddress len =>
    obtain ⟨addr, _, read⟩ := withAddress_eq_next accessed
    cases read
    exact dispInv_of_afterLoads rfl locals.2.2
  case regRead len addr =>
    obtain ⟨asked, rfl⟩ := callRegRead_eq_next accessed
    exact dispInv_of_afterStores rfl (by rw [Nat.zero_add, asked]; exact locals.2)
  case storePayload index bytes failed =>
    cases bytes with
    | nil => cases accessed; trivial
    | cons b rest =>
      obtain ⟨_, rfl⟩ := dispatcherStore_eq_next accessed
      exact dispInv_of_afterStores rfl (by rw [List.length_cons] at locals; dsimp only; omega)
  case loadPayload len addr got =>
    obtain ⟨_, rfl⟩ := dispatcherLoad_eq_next accessed
    exact dispInv_of_afterLoads rfl locals.2
  case regWrite | writeReadError | clearReadReq | setReadReady | writeWriteError | clearWriteReq | setWriteComplete =>
    cases accessed
    trivial

theorem Inv.of_dispatcherAccess {answer : RegAnswer} {t : State} (accessed : dispatcherAccess answer s = .next t) :
    Inv t := by
  have locals := h.dispInv_of_dispatcherAccess accessed
  cases accessed_of_dispatcherAccess accessed with
  | stored index b rest failed place inRange => exact { h.of_writePayload inRange b with dispInv := locals }
  | readRequestCleared =>
    exact { h with dispInv := locals, requestsServable := fun pending => h.requestsServable (by simp_all) }
  | writeRequestCleared =>
    exact { h with dispInv := locals, requestsServable := fun pending => h.requestsServable (by simp_all) }
  | _ => exact { h with dispInv := locals }

end

/-- R44, R47: nothing is committed or pending after a reset, and the contents given are in canonical form. -/
theorem inv_resetWith {c : Cfg} (valid : c.Valid) (contents : List Byte) : Inv (State.resetWith c contents) where
  cfgValid := valid
  lengthLegal := nofun
  lengthCommitted := nofun
  addressCommitted := nofun
  writeInRange := nofun
  readInRange := nofun
  writeQueued := nofun
  readQueued := nofun
  txInRange := valid.2.1
  requestsServable := nofun
  statusHighBits := (by decide : (0 : Byte).extractLsb' 6 2 = 0)
  payloadWf := State.resetWith_payload_wf c contents
  dispInv := trivial

theorem Inv.of_runEvent {e : Event} {s t : State} (h : Inv s) (ran : runEvent e s = .next t) : Inv t := by
  cases e with
  | invoke snap => exact h.of_invoke ran
  | main answer => exact h.of_dispatcherAccess ran
  | reset contents => cases ran; exact (inv_resetWith h.cfgValid contents).of_withEvents _

theorem Inv.of_runEvents {es : List Event} {s t : State} (h : Inv s) (ran : runEvents es s = .next t) : Inv t := by
  induction es generalizing s with
  | nil => cases ran; exact h
  | cons e es ih =>
    rw [runEvents_cons] at ran
    obtain ⟨u, first, onward⟩ := andThen_eq_next.mp ran
    exact ih (h.of_runEvent first) onward

/-- Settles O39: the step is the next event on the state without it. -/
theorem stepKeepsInvariant : Obligations.StepKeepsInvariant := by
  intro s t h stepped
  cases pending : s.events with
  | nil => rw [step_of_nil pending] at stepped; cases stepped; exact h
  | cons e rest =>
    rw [step_of_cons pending] at stepped
    exact (h.of_withEvents rest).of_runEvent stepped

/-- Settles O38: the host's reset state is the reset with no contents given. -/
theorem resetSatisfiesInvariant : Obligations.ResetSatisfiesInvariant :=
  ⟨fun _ contents valid => inv_resetWith valid contents, inv_resetWith (c := Cfg.ref) (by decide) []⟩

/-! ### What the machine answers under the invariant -/

section
variable {s : State} (h : Inv s)
include h

/-- R166: the transmit step always has a byte. -/
theorem Inv.transmit_answers : ∃ t, transmit s = .next t := by
  cases mode : s.txMode with
  | idle => exact ⟨_, transmit_of_idle mode⟩
  | status => exact ⟨_, transmit_of_status mode⟩
  | data => exact ⟨_, transmit_of_data mode h.txInRange⟩

/-- R124: the table is total but for DATA_ACCESS without a length. -/
theorem Inv.receive_answers (b : Byte) :
    (∃ t, receive b s = .next t ∧ t.state = Claims.tableNextState s b) ∨
    (s.state = .awaitControl ∧ s.length = none ∧ (∃ x, b = controlByte s.cfg s.cfg.opcDataAccess x) ∧
      receive b s = .fault .dataAccessBeforeInit) := by
  unfold Claims.tableNextState
  cases here : s.state with
  | awaitControl =>
    rw [bits_7_4_eq_highNibble]
    obtain ⟨unsynced, received⟩ | ⟨x, rfl, received⟩ | ⟨x, rfl, received⟩ |
      ⟨x, rfl, ⟨noLength, faulted⟩ | ⟨_, _, received⟩ | ⟨_, _, received⟩⟩ | ⟨x, rfl, received⟩ :=
      receive_control h.cfgValid here b
    · exact .inl ⟨s, received, by rw [if_neg unsynced, here]⟩
    · exact .inl ⟨_, received, by simp⟩
    · exact .inl ⟨_, received, by simp⟩
    · exact .inr ⟨rfl, noLength, ⟨x, rfl⟩, faulted⟩
    · exact .inl ⟨_, received, by simp⟩
    · exact .inl ⟨_, received, by simp⟩
    · exact .inl ⟨_, received, by simp⟩
  | awaitSync =>
    simp only [receive_of_state, here]
    obtain ⟨matched, accepted⟩ | ⟨other, refused⟩ := execSyncByte_cases (highNibble b) (lowNibble b) s
    · exact .inl ⟨_, accepted, (if_pos matched).symm⟩
    · exact .inl ⟨_, refused, (if_neg other).symm⟩
  | awaitLenLow =>
    simp only [receive_of_state, here, acquireLength_eq]
    refine .inl ⟨_, rfl, ?_⟩
    split <;> rfl
  | transferRead =>
    obtain ⟨len, committed, _⟩ := h.readInRange here
    simp only [receive_of_state, here, countRead_of_length committed, committed, Option.some.injEq]
    refine .inl ⟨_, rfl, ?_⟩
    split <;> rfl
  | transferWrite =>
    obtain ⟨len, committed, _, inRange⟩ := h.writeCursor_lt here
    simp only [receive_of_state, here, storeWrite_of_inRange committed inRange, committed, Option.some.injEq]
    refine .inl ⟨_, rfl, ?_⟩
    unfold countWrite nextCursor
    split <;> rfl
  | awaitAddrHi | awaitAddrLo | awaitStatusSent =>
    simp only [receive_of_state, here]
    exact .inl ⟨_, rfl, rfl⟩

/-- R204: an invocation stops in its receive step or not at all. -/
theorem Inv.invoke_answers (snap : Snapshot) :
    (∃ t, invoke snap s = .next t) ∨
    (invoke snap s = .fault .dataAccessBeforeInit ∧ s.state = .awaitControl ∧ s.length = none ∧
      ∃ x, snap.rx = some (controlByte s.cfg s.cfg.opcDataAccess x)) := by
  have captured := h.of_captureErrors snap.ovr snap.udr
  have transmits : ∀ u, Inv u → ∃ t, transmitIfReady snap.txReady u = .next t := by
    intro u kept
    cases snap.txReady with
    | false => exact ⟨u, rfl⟩
    | true => exact kept.transmit_answers
  unfold invoke
  cases carried : snap.rx with
  | none => exact .inl (transmits _ captured)
  | some b =>
    rw [receiveIfPresent]
    obtain ⟨u, received, _⟩ | ⟨here, noLength, ⟨x, rfl⟩, faulted⟩ := captured.receive_answers b
    · rw [received]
      exact .inl (transmits u (captured.of_receive received))
    · rw [faulted]
      exact .inr ⟨rfl, here, noLength, x, rfl⟩

/-- R174, R175: an access has the values and the indices it needs; only the collaborator's answer may not fit. -/
theorem Inv.dispatcherAccess_answers (answer : RegAnswer) :
    (∃ t, dispatcherAccess answer s = .next t) ∨
    (∃ len addr, s.disp = .regRead len addr ∧ answer.bytes.length ≠ len.toNat ∧
      dispatcherAccess answer s = .refused (.answerNotOfLength len answer.bytes.length)) := by
  have locals := h.dispInv
  unfold DispInv at locals
  unfold dispatcherAccess
  cases place : s.disp <;> simp only [place] at locals ⊢
  case readLength | writeLength =>
    obtain ⟨len, committed⟩ := Option.isSome_iff_exists.mp locals.1
    exact .inl ⟨_, withLength_of_some committed _⟩
  case readAddress len | writeAddress len =>
    obtain ⟨addr, committed⟩ := Option.isSome_iff_exists.mp locals.1
    exact .inl ⟨_, withAddress_of_some committed _⟩
  case regRead len addr =>
    unfold callRegRead
    by_cases asked : answer.bytes.length = len.toNat
    · exact .inl ⟨_, if_pos asked⟩
    · exact .inr ⟨len, addr, rfl, asked, if_neg asked⟩
  case storePayload index bytes failed =>
    cases bytes with
    | nil => exact .inl ⟨_, rfl⟩
    | cons b rest =>
      have inRange : index < s.cfg.maxFrameLen := by rw [List.length_cons] at locals; omega
      simp only [dispatcherStore, payloadStore_eq_some.mpr ⟨inRange, rfl⟩]
      exact .inl ⟨_, rfl⟩
  case loadPayload len addr got =>
    have inRange : got.length < s.cfg.maxFrameLen := locals.1.trans_le locals.2
    simp only [dispatcherLoad, payloadLoad_eq_some.mpr ⟨inRange, rfl⟩]
    exact .inl ⟨_, rfl⟩
  all_goals exact .inl ⟨_, rfl⟩

end

/-- Settles O30. -/
theorem receiveFollowsTransitionTable : Obligations.ReceiveFollowsTransitionTable :=
  fun _ b h => h.receive_answers b

/-- R174: what the model refuses. -/
theorem dispatcherAccess_of_answerNotOfLength {s : State} {len addr : Word16} {answer : RegAnswer}
    (place : s.disp = .regRead len addr) (notOfLength : answer.bytes.length ≠ len.toNat) :
    dispatcherAccess answer s = .refused (.answerNotOfLength len answer.bytes.length) := by
  simp only [dispatcherAccess, place, callRegRead, if_neg notOfLength]

/-- Settles O40: an invocation faults in the one case of `Inv.invoke_answers`, an access is refused in the one case of
`Inv.dispatcherAccess_answers`, and a reset or a pause answers a next state. -/
theorem stepStopsExactlyWhen : Obligations.StepStopsExactlyWhen := by
  intro s h
  constructor
  · intro e
    constructor
    · intro stopped
      cases pending : s.events with
      | nil => rw [step_of_nil pending] at stopped; cases stopped
      | cons event rest =>
        rw [step_of_cons pending] at stopped
        have kept := h.of_withEvents rest
        cases event with
        | reset contents => cases stopped
        | main answer =>
          obtain ⟨t, answered⟩ | ⟨_, _, _, _, refused⟩ := kept.dispatcherAccess_answers answer
          · cases answered.symm.trans stopped
          · cases refused.symm.trans stopped
        | invoke snap =>
          obtain ⟨t, answered⟩ | ⟨faulted, here, noLength, x, carried⟩ := kept.invoke_answers snap
          · cases answered.symm.trans stopped
          · cases faulted.symm.trans stopped
            exact ⟨rfl, here, noLength, snap, rest, x, rfl, carried⟩
    · rintro ⟨rfl, here, noLength, snap, rest, x, pending, carried⟩
      exact (dataAccessWithoutLengthFaults.2 s x snap rest h.cfgValid here noLength pending carried).2
  · intro e
    constructor
    · intro stopped
      cases pending : s.events with
      | nil => rw [step_of_nil pending] at stopped; cases stopped
      | cons event rest =>
        rw [step_of_cons pending] at stopped
        have kept := h.of_withEvents rest
        cases event with
        | reset contents => cases stopped
        | main answer =>
          obtain ⟨t, answered⟩ | ⟨len, addr, place, notOfLength, refused⟩ := kept.dispatcherAccess_answers answer
          · cases answered.symm.trans stopped
          · cases refused.symm.trans stopped
            exact ⟨answer, rest, len, addr, rfl, place, notOfLength, rfl⟩
        | invoke snap =>
          obtain ⟨t, answered⟩ | ⟨faulted, _⟩ := kept.invoke_answers snap
          · cases answered.symm.trans stopped
          · cases faulted.symm.trans stopped
    · rintro ⟨answer, rest, len, addr, pending, place, notOfLength, rfl⟩
      rw [step_of_cons pending]
      exact dispatcherAccess_of_answerNotOfLength place notOfLength

end Sys2Proof.Machine
end

section
/-! PROOFS. The dispatcher (43_dispatcher.md R170 to R175): the branches with their requests, the pass-through store, and the
single accesses of a call, which amount to the call as one operation. -/

namespace Sys2Proof.Machine

/-! ### Ranges of a memory -/

/-- A range just written reads back, inside the space of its memory. -/
theorem Memory.readList_writeList {size a : Nat} {m : Memory} (bytes : List Byte) (wf : Memory.wf size m = true)
    (fits : a + bytes.length ≤ size) : Memory.readList (Memory.writeList m a bytes) a bytes.length = bytes := by
  refine List.ext_getElem (by simp) fun i _ inRange => ?_
  simp only [Memory.readList, List.getElem_map, List.getElem_range]
  exact Memory.read_writeList bytes wf fits i inRange

/-- A range is read first byte first. -/
theorem Memory.readList_succ (m : Memory) (a n : Nat) :
    Memory.readList m a (n + 1) = Memory.read m a :: Memory.readList m (a + 1) n := by
  simp only [Memory.readList, List.range_succ_eq_map, List.map_cons, List.map_map, Nat.add_zero]
  congr 2
  funext i
  simp only [Function.comp_apply, Nat.succ_eq_add_one, Nat.add_assoc, Nat.add_comm 1 i]

/-! ### The branches as one operation -/

/-- What the read branch leaves (R171). -/
def readServed (len addr : Word16) (answer : RegAnswer) (s : State) : State :=
  { s with
    payload := Memory.writeList s.payload 0 answer.bytes
    readRegError := answer.failed, readDataReq := false, readDataReady := true
    regCalls := s.regCalls ++ [.read len addr] }

/-- What the write branch leaves (R172). -/
def writeServed (len addr : Word16) (bytes : List Byte) (failed : Bool) (s : State) : State :=
  { s with
    writeRegError := failed, writeDataReq := false, writeDataComplete := true
    regCalls := s.regCalls ++ [.write len addr bytes] }

/-- R171: with a request pending, both operands committed and an answer of the length, the branch makes its one call, stores
the answer and completes, whether or not the collaborator failed. -/
theorem readBranch_of_request {s : State} {len addr : Word16} {answer : RegAnswer} (pending : s.readDataReq = true)
    (hasLength : s.length = some len) (hasAddress : s.address = some addr) (asked : answer.bytes.length = len.toNat) :
    readBranch answer s = .next (readServed len addr answer s) := by
  rw [readBranch, if_pos pending, withLength_of_some hasLength, withAddress_of_some hasAddress, if_pos asked, readServed]

/-- Settles O42: the read branch, then the write branch on the state it left: without a write request nothing, with one the
call of the bytes that the buffer, just written, reads back. -/
theorem readBranchServesRequest : Obligations.ReadBranchServesRequest := by
  intro s answer other len addr pending hasLength hasAddress asked
  rw [dispatchCall, readBranch_of_request pending hasLength hasAddress asked, andThen_next]
  constructor
  · intro noWrite
    exact writeBranch_of_no_request (s := readServed len addr answer s) noWrite other
  · intro write wf fits
    have back := Memory.readList_writeList (a := 0) answer.bytes wf (by omega)
    rw [asked] at back
    rw [writeBranch_of_request (s := readServed len addr answer s) write hasLength hasAddress]
    simp only [readServed, back, List.append_assoc, List.cons_append, List.nil_append]

/-- Settles O45: the bytes are read from the range they were written to, inside the space of the store. -/
theorem passThroughReadsBack : Obligations.PassThroughReadsBack := by
  intro store size len addr bytes wf fits asked
  simp only [passThrough, ← asked, Memory.readList_writeList bytes wf fits]

/-! ### The accesses of a call, place by place -/

/-- The state with the dispatcher at a place. -/
def State.atPlace (place : DispPc) (s : State) : State := { s with disp := place }

theorem State.atPlace_self {s : State} {place : DispPc} (here : s.disp = place) : s.atPlace place = s := by
  rw [State.atPlace, ← here]

/-- `n` accesses in a row, each offered the same answer. -/
def accesses (answer : RegAnswer) (n : Nat) (s : State) : Result := runEvents (List.replicate n (.main answer)) s

@[simp] theorem accesses_zero (answer : RegAnswer) (s : State) : accesses answer 0 s = .next s := rfl

/-- A first access that answers a next state leaves the others to run on it. -/
theorem accesses_of_access {answer : RegAnswer} {s t : State} (accessed : dispatcherAccess answer s = .next t)
    (n : Nat) : accesses answer (n + 1) s = accesses answer n t := by
  have unfolded : accesses answer (n + 1) s = andThen (dispatcherAccess answer s) (accesses answer n) := rfl
  rw [unfolded, accessed, andThen_next]

section
variable (answer : RegAnswer) {s : State} {len addr : Word16}

theorem access_readLength (hasLength : s.length = some len) :
    dispatcherAccess answer (s.atPlace .readLength) = .next (s.atPlace (.readAddress len)) :=
  withLength_of_some (s := s.atPlace .readLength) hasLength _

theorem access_readAddress (hasAddress : s.address = some addr) :
    dispatcherAccess answer (s.atPlace (.readAddress len)) = .next (s.atPlace (.regRead len addr)) :=
  withAddress_of_some (s := s.atPlace (.readAddress len)) hasAddress _

theorem access_writeLength (hasLength : s.length = some len) :
    dispatcherAccess answer (s.atPlace .writeLength) = .next (s.atPlace (.writeAddress len)) :=
  withLength_of_some (s := s.atPlace .writeLength) hasLength _

theorem access_writeAddress (hasAddress : s.address = some addr) :
    dispatcherAccess answer (s.atPlace (.writeAddress len)) = .next (s.atPlace (afterLoads len addr [])) :=
  withAddress_of_some (s := s.atPlace (.writeAddress len)) hasAddress _

theorem access_regRead (asked : answer.bytes.length = len.toNat) :
    dispatcherAccess answer (s.atPlace (.regRead len addr)) =
      .next (({ s with regCalls := s.regCalls ++ [.read len addr] } : State).atPlace
        (afterStores 0 answer.bytes answer.failed)) :=
  if_pos asked

theorem access_storePayload {index : Nat} (inRange : index < s.cfg.maxFrameLen) (b : Byte) (rest : List Byte)
    (failed : Bool) :
    dispatcherAccess answer (s.atPlace (.storePayload index (b :: rest) failed)) =
      .next ({ s with payload := Memory.write s.payload index b }.atPlace (afterStores (index + 1) rest failed)) := by
  have stored := payloadStore_eq_some (s := s.atPlace (.storePayload index (b :: rest) failed)) (b := b).mpr ⟨inRange, rfl⟩
  simp only [dispatcherAccess, State.atPlace, dispatcherStore] at stored ⊢
  rw [stored]

theorem access_loadPayload {got : List Byte} (inRange : got.length < s.cfg.maxFrameLen) :
    dispatcherAccess answer (s.atPlace (.loadPayload len addr got)) =
      .next (s.atPlace (afterLoads len addr (got ++ [Memory.read s.payload got.length]))) := by
  have loaded := payloadLoad_eq_some (s := s.atPlace (.loadPayload len addr got)).mpr ⟨inRange, rfl⟩
  simp only [dispatcherAccess, State.atPlace, dispatcherLoad] at loaded ⊢
  rw [loaded]

/-- R171: the stores of the read branch, one byte an access, ascending. -/
theorem accesses_stores (n : Nat) {index : Nat} {bytes : List Byte} (failed : Bool)
    (fits : index + bytes.length ≤ s.cfg.maxFrameLen) :
    accesses answer (bytes.length + n) (s.atPlace (afterStores index bytes failed)) =
      accesses answer n
        ({ s with payload := Memory.writeList s.payload index bytes }.atPlace (.writeReadError failed)) := by
  induction bytes generalizing s index with
  | nil =>
    rw [List.length_nil, Nat.zero_add]
    rfl
  | cons b rest ih =>
    rw [List.length_cons] at fits
    have first := access_storePayload answer (s := s) (index := index) (by omega) b rest failed
    rw [List.length_cons, Nat.add_right_comm]
    exact (accesses_of_access first _).trans (ih (s := { s with payload := Memory.write s.payload index b })
      (index := index + 1) (by dsimp only; omega))

/-- R172: the loads of the write branch, one byte an access, ascending. -/
theorem accesses_loads (n : Nat) {got : List Byte} {k : Nat} (left : got.length + k = len.toNat)
    (fits : len.toNat ≤ s.cfg.maxFrameLen) :
    accesses answer (k + n) (s.atPlace (afterLoads len addr got)) =
      accesses answer n (s.atPlace (.regWrite len addr (got ++ Memory.readList s.payload got.length k))) := by
  induction k generalizing got with
  | zero =>
    have none : Memory.readList s.payload got.length 0 = [] := rfl
    rw [Nat.zero_add, none, List.append_nil, afterLoads, if_neg (by omega)]
  | succ k ih =>
    have first := access_loadPayload answer (s := s) (len := len) (addr := addr) (got := got) (by omega)
    rw [afterLoads, if_pos (by omega), Nat.add_right_comm, accesses_of_access first,
      ih (by rw [List.length_append, List.length_singleton]; omega), Memory.readList_succ]
    simp only [List.append_assoc, List.singleton_append, List.length_append, List.length_singleton]

/-- The accesses of the read branch with its request pending: three up to the call, the call, the stores, three writes. -/
theorem accesses_readBranch (place : s.disp = .idle) (pending : s.readDataReq = true) (hasLength : s.length = some len)
    (hasAddress : s.address = some addr) (asked : answer.bytes.length = len.toNat)
    (fits : len.toNat ≤ s.cfg.maxFrameLen) :
    accesses answer (len.toNat + 7) s = .next ((readServed len addr answer s).atPlace .testWriteReq) := by
  have test : dispatcherAccess answer s = .next (s.atPlace .readLength) := by
    simp only [dispatcherAccess, place, pending, if_true, State.atPlace]
  rw [accesses_of_access test, accesses_of_access (access_readLength answer hasLength),
    accesses_of_access (access_readAddress answer hasAddress), accesses_of_access (access_regRead answer asked),
    ← asked, accesses_stores answer 3 answer.failed (by dsimp only; omega)]
  rfl

/-- The accesses of the write branch with its request pending: three up to the loads, the loads, the call, three
writes. -/
theorem accesses_writeBranch (pending : s.writeDataReq = true) (hasLength : s.length = some len)
    (hasAddress : s.address = some addr) (fits : len.toNat ≤ s.cfg.maxFrameLen) :
    accesses answer (len.toNat + 7) (s.atPlace .testWriteReq) = .next
      ((writeServed len addr (Memory.readList s.payload 0 len.toNat) answer.failed s).atPlace .idle) := by
  have test : dispatcherAccess answer (s.atPlace .testWriteReq) = .next (s.atPlace .writeLength) := by
    simp only [dispatcherAccess, State.atPlace, pending, if_true]
  rw [accesses_of_access test, accesses_of_access (access_writeLength answer hasLength),
    accesses_of_access (access_writeAddress answer hasAddress), accesses_loads answer 4 (by simp) fits]
  rfl

end

/-! ### A call -/

section
variable {s : State} (answer : RegAnswer)

/-- The read branch's accesses amount to the branch; the dispatcher is then at its second test. -/
theorem accesses_eq_readBranch (h : Inv s) (place : s.disp = .idle)
    (asked : ∀ len, s.length = some len → answer.bytes.length = len.toNat) :
    ∃ t, readBranch answer s = .next t ∧
      accesses answer (if s.readDataReq then (s.length.getD 0).toNat + 7 else 1) s = .next (t.atPlace .testWriteReq) ∧
      t.disp = .idle ∧ t.cfg = s.cfg ∧ t.length = s.length ∧ t.address = s.address ∧
      t.writeDataReq = s.writeDataReq := by
  cases pending : s.readDataReq with
  | false =>
    have test : dispatcherAccess answer s = .next (s.atPlace .testWriteReq) := by
      simp only [dispatcherAccess, place, pending, Bool.false_eq_true, if_false, State.atPlace]
    exact ⟨s, readBranch_of_no_request pending answer, accesses_of_access test 0, place, rfl, rfl, rfl, rfl⟩
  | true =>
    obtain ⟨hasLength, hasAddress⟩ := h.requestsServable (.inl pending)
    obtain ⟨len, hasLength⟩ := Option.isSome_iff_exists.mp hasLength
    obtain ⟨addr, hasAddress⟩ := Option.isSome_iff_exists.mp hasAddress
    have ran := accesses_readBranch answer place pending hasLength hasAddress (asked len hasLength)
      (h.lengthLegal len hasLength).2
    rw [if_pos rfl, hasLength]
    exact ⟨_, readBranch_of_request pending hasLength hasAddress (asked len hasLength), ran, place, rfl, hasLength, rfl, rfl⟩

/-- The write branch's accesses amount to the branch, and the call is over. -/
theorem accesses_eq_writeBranch (place : s.disp = .idle)
    (servable : s.writeDataReq = true → ∃ len addr, s.length = some len ∧ s.address = some addr ∧
      len.toNat ≤ s.cfg.maxFrameLen) :
    ∃ t, writeBranch answer s = .next t ∧
      accesses answer (if s.writeDataReq then (s.length.getD 0).toNat + 7 else 1) (s.atPlace .testWriteReq) =
        .next t := by
  cases pending : s.writeDataReq with
  | false =>
    have test : dispatcherAccess answer (s.atPlace .testWriteReq) = .next (s.atPlace .idle) := by
      simp only [dispatcherAccess, pending, Bool.false_eq_true, if_false, State.atPlace]
    refine ⟨s, writeBranch_of_no_request pending answer, (accesses_of_access test 0).trans ?_⟩
    rw [accesses_zero, State.atPlace_self place]
  | true =>
    obtain ⟨len, addr, hasLength, hasAddress, fits⟩ := servable pending
    have ran := accesses_writeBranch answer pending hasLength hasAddress fits
    rw [State.atPlace_self (s := writeServed _ _ _ _ s) place] at ran
    rw [if_pos rfl, hasLength]
    exact ⟨_, writeBranch_of_request pending hasLength hasAddress answer, ran⟩

end

/-- Settles O44: the schedule is the accesses of the one branch and then those of the other, each of which amounts to its
branch. -/
theorem uninterruptedAccessesAreOneCall : Obligations.UninterruptedAccessesAreOneCall := by
  intro s readAnswer writeAnswer h place asked
  obtain ⟨t, read, readRan, readPlace, cfg, length, address, request⟩ := accesses_eq_readBranch readAnswer h place asked
  have servable : t.writeDataReq = true → ∃ len addr, t.length = some len ∧ t.address = some addr ∧
      len.toNat ≤ t.cfg.maxFrameLen := by
    intro pending
    rw [length, address, cfg]
    obtain ⟨hasLength, hasAddress⟩ := h.requestsServable (.inr (request ▸ pending))
    obtain ⟨len, hasLength⟩ := Option.isSome_iff_exists.mp hasLength
    obtain ⟨addr, hasAddress⟩ := Option.isSome_iff_exists.mp hasAddress
    exact ⟨len, addr, hasLength, hasAddress, (h.lengthLegal len hasLength).2⟩
  obtain ⟨u, written, writeRan⟩ := accesses_eq_writeBranch writeAnswer readPlace servable
  have call : dispatchCall readAnswer writeAnswer s = .next u := by
    rw [dispatchCall, read, andThen_next, written]
  refine ⟨?_, ?_, u, call⟩
  · rw [length, request] at writeRan
    rw [Claims.callSchedule, runEvents_append, call]
    exact (congrArg (andThen · _) readRan).trans writeRan
  · intro noRead noWrite
    rw [dispatchCall_of_no_read_request noRead, writeBranch_of_no_request noWrite]

end Sys2Proof.Machine
end

section
/-! PROOFS. Whole frames byte by byte (40_frame_decoder.md, 42_transmit_sequencer.md R165, R167), received alone and as bus
slots. -/

namespace Sys2Proof.Machine

/-! ### The byte that each step of a frame receives -/

section
variable {s : State}

theorem receive_init (valid : s.cfg.Valid) (here : s.state = .awaitControl) (direction : Bool) (x : Field2) :
    receive (controlByte s.cfg (initCode s.cfg direction) x) s = .next (startInit direction s) := by
  rw [receive_of_state, here]
  simp only [decodeControl_initCode valid]
  cases direction <;> rfl

theorem receive_statusRead (valid : s.cfg.Valid) (here : s.state = .awaitControl) (x : Field2) :
    receive (controlByte s.cfg s.cfg.opcStatusRead x) s = .next (startStatus s) := by
  rw [receive_of_state, here]
  simp only [decodeControl_statusRead valid, exec_status_ctrl]

theorem receive_readData (valid : s.cfg.Valid) (here : s.state = .awaitControl) (hasLength : s.length.isSome)
    (latch : s.direction = true) (x : Field2) :
    receive (controlByte s.cfg s.cfg.opcDataAccess x) s = .next (startRead s) := by
  rw [receive, decodeByte_dataAccess valid here, if_pos hasLength, if_pos latch, exec_rdata_ctrl hasLength]

theorem receive_writeData (valid : s.cfg.Valid) (here : s.state = .awaitControl) (hasLength : s.length.isSome)
    (latch : s.direction = false) (x : Field2) :
    receive (controlByte s.cfg s.cfg.opcDataAccess x) s = .next (startWrite s) := by
  rw [receive, decodeByte_dataAccess valid here, if_pos hasLength, latch, if_neg Bool.false_ne_true,
    exec_wdata_ctrl hasLength]

theorem receive_sync (here : s.state = .awaitSync) (low : Nibble) :
    receive (nibblePair s.cfg.sync2 low) s = .next (acceptSync low s) := by
  rw [receive_of_state, here]
  simp only [execSyncByte, highNibble_nibblePair, lowNibble_nibblePair, if_true]

theorem receive_otherSync (here : s.state = .awaitSync) {b : Byte} (other : highNibble b ≠ s.cfg.sync2) :
    receive b s = .next (abandonFrame s) := by
  rw [receive_of_state, here]
  simp only [execSyncByte, if_neg other]

/-- R118 at a length's low byte, its high nibble held. -/
theorem receive_length (valid : s.cfg.Valid) (here : s.state = .awaitLenLow) {len : Word16}
    (held : s.lenHi = lengthNibble len) (legal : legalLength s.cfg len) :
    receive (len.extractLsb' 0 8) s = .next { s with length := some len, state := .awaitAddrHi } := by
  have candidate : lengthCandidate s.lenHi (len.extractLsb' 0 8) = len := by
    rw [held]
    exact lengthCandidate_of_fields valid legal
  rw [receive_of_state, here]
  simp only [acquireLength, candidate, lengthIsValid_iff.mpr legal, if_true]

theorem receive_addressHigh (here : s.state = .awaitAddrHi) (b : Byte) : receive b s = .next (acquireAddrHi b s) :=
  (addressHighByteIsHeld s b _ (.inl rfl)).2 here

/-- R120 at an address's low byte, its high byte held. -/
theorem receive_address (here : s.state = .awaitAddrLo) {addr : Word16} (held : s.addrHi = addr.extractLsb' 8 8) :
    receive (addr.extractLsb' 0 8) s = .next
      { s with
        address := some addr, readDataReq := s.readDataReq || s.direction, state := .awaitControl } := by
  rw [receive_of_state, here]
  simp only [acquireAddrLo, held, addressFrom_of_fields]

theorem receive_of_transferRead (here : s.state = .transferRead) {len : Word16} (hasLength : s.length = some len)
    (b : Byte) :
    receive b s = .next
      (if s.rdCursor + 1 = len then
        { s with rdCursor := s.rdCursor + 1, txMode := .idle, state := .awaitControl }
      else { s with rdCursor := s.rdCursor + 1 }) := by
  obtain ⟨counted, received⟩ := readDataByteIsCounted s b len hasLength
  rw [received here, counted]

theorem receive_of_transferWrite (here : s.state = .transferWrite) {len : Word16} (hasLength : s.length = some len)
    (inRange : s.wrCursor.toNat < s.cfg.maxFrameLen) (b : Byte) :
    receive b s = .next
      (if s.wrCursor + 1 = len then
        { s with
          payload := Memory.write s.payload s.wrCursor.toNat b
          wrCursor := s.wrCursor + 1, writeDataReq := true, state := .awaitControl }
      else
        { s with payload := Memory.write s.payload s.wrCursor.toNat b, wrCursor := s.wrCursor + 1 }) := by
  obtain ⟨stored, received⟩ := writeDataByteIsStored s b len hasLength inRange
  rw [received here, stored]

/-- A frame that ends where it began returns to the decoder state it began in. -/
theorem abandonFrame_of_control (here : s.state = .awaitControl) : abandonFrame s = s := by
  rw [abandonFrame, ← here]

/-- A cursor one below the length is at its last byte. -/
theorem cursor_succ_eq_iff {cursor len : Word16} (below : cursor.toNat < len.toNat) :
    cursor + 1 = len ↔ cursor.toNat + 1 = len.toNat := by
  rw [← nextCursor_toNat below]
  exact ⟨fun last => congrArg BitVec.toNat last, fun last => BitVec.eq_of_toNat_eq last⟩

end

/-! ### Quiet frames

A frame none of whose bytes writes the transmit mode does the same received alone and as bus slots; with an IDLE sequencer
each slot emits the filler. -/

/-- Receiving these bytes answers this state, each byte leaving the transmit mode as it was. -/
inductive QuietRun : List Byte → State → State → Prop
  | nil (s : State) : QuietRun [] s s
  | cons {b : Byte} {bytes : List Byte} {s u t : State} (received : receive b s = .next u)
      (quiet : u.txMode = s.txMode) (onward : QuietRun bytes u t) : QuietRun (b :: bytes) s t

theorem QuietRun.append {before after : List Byte} {s u t : State} (first : QuietRun before s u)
    (second : QuietRun after u t) : QuietRun (before ++ after) s t := by
  induction first with
  | nil => exact second
  | cons received quiet _ ih => exact .cons received quiet (ih second)

theorem QuietRun.runEvents {bytes : List Byte} {s t : State} (run : QuietRun bytes s t) :
    runEvents (receiveEvents bytes) s = .next t := by
  induction run with
  | nil => rfl
  | cons received _ _ ih => rw [runEvents_receive_cons, received, andThen_next, ih]

/-- The receive step does not read the log of emitted bytes. -/
theorem receive_emit {b : Byte} {s u : State} (received : receive b s = .next u) (v : Byte) :
    receive b (emit v s) = .next (emit v u) := by
  have commutes := receive_mapOutside (· ++ [v]) id s b
  rw [received, mapNext_next] at commutes
  exact commutes

/-- The same run from a state with one more byte emitted. -/
theorem QuietRun.emit {bytes : List Byte} {s t : State} (run : QuietRun bytes s t) (v : Byte) :
    QuietRun bytes (emit v s) (emit v t) := by
  induction run with
  | nil => exact .nil _
  | cons received quiet _ ih => exact .cons (receive_emit received v) quiet ih

/-- R163: with an IDLE sequencer a quiet run of slots emits the filler in each. -/
theorem QuietRun.runSlots {bytes : List Byte} {s t : State} (run : QuietRun bytes s t) (idle : s.txMode = .idle) :
    runSlots bytes s = .next { t with emitted := t.emitted ++ List.replicate bytes.length 0x00 } := by
  induction bytes generalizing s t with
  | nil =>
    cases run
    rw [List.length_nil, List.replicate_zero, List.append_nil]
    rfl
  | cons b bytes ih =>
    cases run with
    | cons received quiet onward =>
      rw [runSlots_cons, transmit_of_idle idle, andThen_next, receive_emit received, andThen_next,
        ih (onward.emit fillByte) (quiet.trans idle), List.length_cons, List.replicate_succ]
      simp only [Machine.emit, List.append_assoc, List.singleton_append, fillByte]

/-! ### INIT frames -/

/-- What an INIT frame leaves (R86, R112, R113, R117 to R120). -/
def initCommitted (direction : Bool) (len addr : Word16) (s : State) : State :=
  { s with
    direction := direction, queued := .awaitLenLow, lenHi := lengthNibble len, length := some len
    addrHi := addr.extractLsb' 8 8, address := some addr, readDataReq := s.readDataReq || direction }

theorem initFrame_quiet {s : State} (valid : s.cfg.Valid) (here : s.state = .awaitControl) {len : Word16}
    (legal : legalLength s.cfg len) (direction : Bool) (addr : Word16) :
    QuietRun (initFrameBytes s.cfg (initCode s.cfg direction) len addr) s (initCommitted direction len addr s) := by
  have ended : abandonFrame (initCommitted direction len addr s) = initCommitted direction len addr s :=
    abandonFrame_of_control here
  rw [← ended]
  refine .cons (receive_init valid here direction 0) rfl ?_
  refine .cons (receive_sync rfl (lengthNibble len)) rfl ?_
  refine .cons (receive_length (s := acceptSync (lengthNibble len) (startInit direction s)) valid rfl rfl legal) rfl ?_
  refine .cons (receive_addressHigh rfl _) rfl ?_
  refine .cons (receive_address rfl rfl) rfl ?_
  exact .nil _

section
variable {s : State} (valid : s.cfg.Valid) (here : s.state = .awaitControl) {len : Word16}
  (legal : legalLength s.cfg len) (addr : Word16)
include valid here legal

theorem winitFrame_quiet : QuietRun (frameBytes s.cfg (.winit len addr)) s (initCommitted false len addr s) :=
  initFrame_quiet valid here legal false addr

theorem rinitFrame_quiet : QuietRun (frameBytes s.cfg (.rinit len addr)) s (initCommitted true len addr s) :=
  initFrame_quiet valid here legal true addr

end

/-- Settles O46: both frames are quiet, so the slots do what the bytes do. -/
theorem initFrameCommits : Obligations.InitFrameCommits := by
  intro s len addr valid here legal written read
  have write : QuietRun (frameBytes s.cfg (.winit len addr)) s written := by
    have run := winitFrame_quiet valid here legal addr
    rwa [initCommitted, Bool.or_false] at run
  have reads : QuietRun (frameBytes s.cfg (.rinit len addr)) s read := by
    have run := rinitFrame_quiet valid here legal addr
    rwa [initCommitted, Bool.or_true] at run
  exact ⟨write.runEvents, reads.runEvents, fun idle => ⟨write.runSlots idle, reads.runSlots idle⟩⟩

/-! ### Write data frames -/

/-- R121: the data bytes fill the buffer from the cursor on; the last raises the request. -/
theorem writeData_quiet {s : State} {len : Word16} {data : List Byte} (here : s.state = .transferWrite)
    (hasLength : s.length = some len) (fits : len.toNat ≤ s.cfg.maxFrameLen) (some : data ≠ [])
    (left : s.wrCursor.toNat + data.length = len.toNat) :
    QuietRun data s
      { s with
        payload := Memory.writeList s.payload s.wrCursor.toNat data
        wrCursor := len, writeDataReq := true, state := .awaitControl } := by
  induction data generalizing s with
  | nil => exact absurd rfl some
  | cons b rest ih =>
    rw [List.length_cons] at left
    have received := receive_of_transferWrite here hasLength (by omega) b
    have last := cursor_succ_eq_iff (cursor := s.wrCursor) (len := len) (by omega)
    cases rest with
    | nil =>
      have reached : s.wrCursor + 1 = len := last.mpr left
      rw [if_pos reached, reached] at received
      exact .cons received rfl (.nil _)
    | cons c rest =>
      have more : ¬ s.wrCursor + 1 = len := fun reached => by
        rw [last] at reached
        rw [List.length_cons] at left
        omega
      rw [if_neg more] at received
      have next : (s.wrCursor + 1).toNat = s.wrCursor.toNat + 1 := nextCursor_toNat (len := len) (by omega)
      have onward := ih (s := { s with
        payload := Memory.write s.payload s.wrCursor.toNat b, wrCursor := s.wrCursor + 1 }) here hasLength fits
        (List.cons_ne_nil _ _) (by dsimp only; omega)
      simp only [next] at onward
      exact .cons received rfl onward

/-- What a write data frame leaves (R115, R117, R121). -/
def dataFilled (len : Word16) (data : List Byte) (s : State) : State :=
  { s with
    queued := .transferWrite, lenHi := lengthNibble len, wrCursor := len
    payload := Memory.writeList s.payload 0 data, writeDataReq := true }

theorem writeFrame_quiet {s : State} (valid : s.cfg.Valid) (here : s.state = .awaitControl)
    (latch : s.direction = false) {len : Word16} (hasLength : s.length = some len) (legal : legalLength s.cfg len)
    {data : List Byte} (sized : data.length = len.toNat) :
    QuietRun (frameBytes s.cfg (.wdata len data)) s (dataFilled len data s) := by
  have ended : abandonFrame (dataFilled len data s) = dataFilled len data s := abandonFrame_of_control here
  have nonempty : data ≠ [] := by
    rintro rfl
    exact absurd legal.1 (by rw [← sized]; simp)
  rw [← ended]
  refine .cons (receive_writeData valid here (by simp [hasLength]) latch 0) rfl ?_
  refine .cons (receive_sync rfl (lengthNibble len)) rfl ?_
  exact writeData_quiet (len := len) (s := acceptSync (lengthNibble len) (startWrite s)) rfl hasLength legal.2 nonempty (by simp [sized])

/-- Settles O47: the frame is quiet, so the slots do what the bytes do. -/
theorem writeFrameFillsBuffer : Obligations.WriteFrameFillsBuffer := by
  intro s len data valid here latch hasLength legal sized filled
  have run : QuietRun (frameBytes s.cfg (.wdata len data)) s filled :=
    writeFrame_quiet valid here latch hasLength legal sized
  exact ⟨run.runEvents, run.runSlots⟩

/-! ### A transaction's frames and the dispatcher's call -/

/-- Settles O48: the two frames commit the operands and fill the buffer; the call's write branch sends what the buffer reads
back. -/
theorem writeTransactionReachesCollaborator : Obligations.WriteTransactionReachesCollaborator := by
  intro s len addr data readAnswer writeAnswer h here noRead noWrite legal sized
  have committed := winitFrame_quiet h.cfgValid here legal addr
  have filled : QuietRun (frameBytes s.cfg (.wdata len data)) _ _ :=
    writeFrame_quiet (s := initCommitted false len addr s) h.cfgValid here rfl rfl legal sized
  have back := Memory.readList_writeList (a := 0) data h.payloadWf (by rw [sized, Nat.zero_add]; exact legal.2)
  rw [sized] at back
  have noReadYet : (dataFilled len data (initCommitted false len addr s)).readDataReq = false := by
    simp [dataFilled, initCommitted, noRead]
  have call : writeBranch writeAnswer (dataFilled len data (initCommitted false len addr s)) = .next
      (writeServed len addr data writeAnswer.failed (dataFilled len data (initCommitted false len addr s))) := by
    rw [writeBranch_of_request (len := len) (addr := addr) rfl rfl rfl, writeServed]
    simp only [dataFilled, initCommitted, back]
  refine ⟨writeServed len addr data writeAnswer.failed (dataFilled len data (initCommitted false len addr s)), ?_, rfl,
    rfl, rfl, rfl, here⟩
  rw [(committed.append filled).runEvents, andThen_next, dispatchCall_of_no_read_request noReadYet, call]

/-- Settles O49: the frame raises the request; the call's read branch serves it, no write being pending. -/
theorem readTransactionFillsBuffer : Obligations.ReadTransactionFillsBuffer := by
  intro s len addr readAnswer writeAnswer h here noRead noWrite legal asked
  have committed := rinitFrame_quiet h.cfgValid here legal addr
  have raised : (initCommitted true len addr s).readDataReq = true := by simp [initCommitted]
  refine ⟨_, readServed len addr readAnswer (initCommitted true len addr s), committed.runEvents, raised, ?_, rfl, rfl,
    rfl, rfl, ?_⟩
  · rw [dispatchCall, readBranch_of_request raised rfl rfl asked, andThen_next]
    exact writeBranch_of_no_request (s := readServed len addr readAnswer (initCommitted true len addr s)) noWrite writeAnswer
  · intro i inRange
    have back := Memory.read_writeList (a := 0) readAnswer.bytes h.payloadWf
      (by rw [asked, Nat.zero_add]; exact legal.2) i inRange
    rwa [Nat.zero_add] at back

end Sys2Proof.Machine
end

section
/-! PROOFS. The frames that the sequencer answers (42_transmit_sequencer.md R161, R162, R165, R167): read data and status
frames as bus slots, and what the slots of any run emit. -/

namespace Sys2Proof.Machine

/-- A slot whose two events answer next states leaves the others to run on the second. -/
theorem runSlots_cons_of {b : Byte} {rest : List Byte} {s u v t : State} (sent : transmit s = .next u)
    (received : receive b u = .next v) (onward : runSlots rest v = .next t) : runSlots (b :: rest) s = .next t := by
  rw [runSlots_cons, sent, andThen_next, received, andThen_next, onward]

/-! ### Read data frames -/

/-- What `n` slots of a read data phase leave, the last of which ends it: the bytes from the transmit cursor on, the cursor
counting modulo the capacity (R122, R162). -/
def dataSent (n : Nat) (len : Word16) (s : State) : State :=
  { s with
    rdCursor := len, txCursor := BitVec.ofNat 16 ((s.txCursor.toNat + n) % s.cfg.maxFrameLen), txMode := .idle
    state := .awaitControl
    emitted := s.emitted ++
      (List.range n).map fun i => Memory.read s.payload ((s.txCursor.toNat + i) % s.cfg.maxFrameLen) }

/-- What the transmit step leaves in DATA mode (R162). -/
def dataByteSent (s : State) : State :=
  emit (Memory.read s.payload s.txCursor.toNat) { s with txCursor := nextTxCursor s.cfg s.txCursor }

theorem dataSent_zero {s : State} (inRange : s.txCursor.toNat < s.cfg.maxFrameLen) :
    dataSent 0 s.rdCursor s = { s with txMode := .idle, state := .awaitControl } := by
  simp only [dataSent, Nat.add_zero, Nat.mod_eq_of_lt inRange, BitVec.ofNat_toNat, BitVec.setWidth_eq, List.range_zero,
    List.map_nil, List.append_nil]

/-- The first slot's byte, then the others'. -/
theorem dataSent_succ {s : State} (valid : s.cfg.Valid) (inRange : s.txCursor.toNat < s.cfg.maxFrameLen) (n : Nat)
    (len : Word16) : dataSent (n + 1) len s = dataSent n len (dataByteSent s) := by
  have cursor : ∀ i, ((nextTxCursor s.cfg s.txCursor).toNat + i) % s.cfg.maxFrameLen =
      (s.txCursor.toNat + (i + 1)) % s.cfg.maxFrameLen := by
    intro i
    rw [nextTxCursor_toNat valid inRange, Nat.mod_add_mod, Nat.add_right_comm, Nat.add_assoc]
  have bytes : (List.range (n + 1)).map (fun i => Memory.read s.payload ((s.txCursor.toNat + i) % s.cfg.maxFrameLen)) =
      Memory.read s.payload s.txCursor.toNat ::
        (List.range n).map fun i => Memory.read s.payload ((s.txCursor.toNat + (i + 1)) % s.cfg.maxFrameLen) := by
    simp only [List.range_succ_eq_map, List.map_cons, List.map_map, Nat.add_zero, Nat.mod_eq_of_lt inRange]
    rfl
  simp only [dataSent, dataByteSent, emit, cursor, bytes, List.append_assoc, List.singleton_append]

theorem dataByteSent_inRange {s : State} (valid : s.cfg.Valid) (inRange : s.txCursor.toNat < s.cfg.maxFrameLen) :
    (dataByteSent s).txCursor.toNat < (dataByteSent s).cfg.maxFrameLen :=
  nextTxCursor_lt valid inRange

/-- R122, R162: the slots of the don't-care bytes, whatever the bytes are. -/
theorem runSlots_readData {s : State} {len : Word16} {bytes : List Byte} (valid : s.cfg.Valid)
    (here : s.state = .transferRead) (mode : s.txMode = .data) (hasLength : s.length = some len)
    (inRange : s.txCursor.toNat < s.cfg.maxFrameLen) (some : bytes ≠ [])
    (left : s.rdCursor.toNat + bytes.length = len.toNat) :
    runSlots bytes s = .next (dataSent bytes.length len s) := by
  induction bytes generalizing s with
  | nil => exact absurd rfl some
  | cons b rest ih =>
    rw [List.length_cons] at left
    have counted := receive_of_transferRead (s := dataByteSent s) here hasLength b
    have last := cursor_succ_eq_iff (cursor := s.rdCursor) (len := len) (by omega)
    have inRange' := dataByteSent_inRange valid inRange
    rw [runSlots_cons, transmit_of_data mode inRange, andThen_next, ← dataByteSent, counted, andThen_next,
      List.length_cons, dataSent_succ valid inRange]
    cases rest with
    | nil =>
      have reached : (dataByteSent s).rdCursor + 1 = len := last.mpr left
      have ended := dataSent_zero (s := { dataByteSent s with rdCursor := len }) inRange'
      rw [if_pos reached, reached]
      exact congrArg Host.Outcome.next ended.symm
    | cons c rest =>
      have more : ¬ (dataByteSent s).rdCursor + 1 = len := fun reached => by
        have := last.mp reached
        rw [List.length_cons] at left
        omega
      have next : (s.rdCursor + 1).toNat = s.rdCursor.toNat + 1 := nextCursor_toNat (len := len) (by omega)
      rw [if_neg more]
      exact ih (s := { dataByteSent s with rdCursor := s.rdCursor + 1 }) valid here mode hasLength inRange'
        (List.cons_ne_nil _ _) (by dsimp only; omega)

/-- R114, R117, R162: a whole read data frame, after the byte that its first slot emits. -/
theorem runSlots_readFrame {s : State} {len : Word16} {bytes : List Byte} (valid : s.cfg.Valid)
    (here : s.state = .awaitControl) (latch : s.direction = true) (hasLength : s.length = some len)
    (legal : legalLength s.cfg len) (sized : bytes.length = len.toNat) {v : State} (first : transmit s = .next v)
    (x : Field2) (low : Nibble) :
    runSlots (controlByte s.cfg s.cfg.opcDataAccess x :: nibblePair s.cfg.sync2 low :: bytes) s =
      .next (dataSent (len.toNat + 1) len (acceptSync low (startRead v))) := by
  obtain ⟨cfg, state, direction, length⟩ :
      v.cfg = s.cfg ∧ v.state = s.state ∧ v.direction = s.direction ∧ v.length = s.length := by
    obtain ⟨_, _, _, rfl⟩ := transmitIfReady_frame (ready := true) first
    exact ⟨rfl, rfl, rfl, rfl⟩
  rw [← cfg] at valid legal
  rw [← state] at here
  rw [← direction] at latch
  rw [← length] at hasLength
  have started := receive_readData valid here (by simp [hasLength]) latch x
  have sent : transmit (startRead v) = .next (dataByteSent (startRead v)) := transmit_of_data rfl valid.2.1
  have synced := receive_sync (s := dataByteSent (startRead v)) rfl low
  have swapped : dataByteSent (acceptSync low (startRead v)) = acceptSync low (dataByteSent (startRead v)) := rfl
  have nonempty : bytes ≠ [] := by
    rintro rfl
    exact absurd legal.1 (by rw [← sized]; simp)
  rw [← cfg, dataSent_succ (s := acceptSync low (startRead v)) valid valid.2.1, swapped, ← sized]
  refine runSlots_cons_of first started (runSlots_cons_of sent synced ?_)
  exact runSlots_readData (s := acceptSync low (dataByteSent (startRead v))) valid rfl rfl hasLength
    (dataByteSent_inRange (s := startRead v) valid valid.2.1) nonempty (by simp [dataByteSent, sized])

/-- Settles O50. -/
theorem readFrameReturnsBuffer : Obligations.ReadFrameReturnsBuffer := by
  intro s len x low dontCare valid here idle latch hasLength legal sized
  refine ⟨_, runSlots_readFrame valid here latch hasLength legal sized (transmit_of_idle idle) x low, ?_, rfl, rfl, rfl, rfl⟩
  simp [dataSent, fillByte]

/-- Settles O55: after the first slot, which comes before the frame's first byte, the two runs leave the same state but for
what their sync bytes hold. -/
theorem dontCareBytesLeaveNoTrace : Obligations.DontCareBytesLeaveNoTrace := by
  intro s t t' x x' low low' bytes bytes' h here latch committed sameLength sized ran ran'
  obtain ⟨len, hasLength⟩ := Option.isSome_iff_exists.mp committed
  obtain ⟨v, first⟩ := h.transmit_answers
  rw [hasLength, Option.getD_some] at sized
  have legal := h.lengthLegal len hasLength
  cases (runSlots_readFrame h.cfgValid here latch hasLength legal sized first x low).symm.trans ran
  cases (runSlots_readFrame h.cfgValid here latch hasLength legal (sameLength ▸ sized) first x' low').symm.trans ran'
  rfl

/-! ### Status frames -/

/-- R123 where nothing is left to end. -/
theorem endStatus_of_idle {s : State} (here : s.state = .awaitControl) (idle : s.txMode = .idle) : endStatus s = s := by
  rw [endStatus, ← here, ← idle]

/-- R150: with all six flags false the status byte is 0. -/
theorem statusMux_of_clear {s : State} (clear : statusFlags s = [false, false, false, false, false, false]) :
    statusMux s = 0x00 := by
  simp only [statusFlags, List.cons.injEq, and_true] at clear
  obtain ⟨ready, complete, overrun, underrun, writeError, readError⟩ := clear
  simp only [statusMux, ready, complete, overrun, underrun, writeError, readError]
  rfl

/-- What a status frame leaves (R116, R117, R123, R161). -/
def polled (low : Nibble) (s : State) : State :=
  { s with
    emitted := s.emitted ++ [0x00, statusMux s, 0x00]
    statusByte := statusMux s, lenHi := low, queued := .awaitStatusSent
    readDataReady := false, writeDataComplete := false, rxOverRunError := false
    txUnderRunError := false, writeRegError := false, readRegError := false }

theorem statusMux_polled (low : Nibble) (s : State) : statusMux (polled low s) = 0x00 := statusMux_of_clear rfl

theorem runSlots_statusFrame {s : State} (valid : s.cfg.Valid) (here : s.state = .awaitControl) (idle : s.txMode = .idle)
    (x : Field2) (low : Nibble) (dontCare : Byte) :
    runSlots [controlByte s.cfg s.cfg.opcStatusRead x, nibblePair s.cfg.sync2 low, dontCare] s =
      .next (polled low s) := by
  have ended : endStatus (polled low s) = polled low s := endStatus_of_idle here idle
  rw [← ended]
  have started := receive_statusRead (s := emit fillByte s) valid here x
  have synced := receive_sync (s := emit (statusMux s) { startStatus (emit fillByte s) with txMode := .idle }) rfl low
  have finished := (statusDontCareEndsFrame (emit fillByte (acceptSync low
    (emit (statusMux s) { startStatus (emit fillByte s) with txMode := .idle }))) dontCare).2 rfl
  refine runSlots_cons_of (transmit_of_idle idle) started ?_
  refine runSlots_cons_of (transmit_of_status rfl) synced ?_
  refine runSlots_cons_of (transmit_of_idle rfl) finished ?_
  have log : s.emitted ++ [0x00, statusMux s, 0x00] = s.emitted ++ [fillByte] ++ [statusMux s] ++ [fillByte] := by
    simp [fillByte]
  rw [polled, log]
  rfl

/-- Settles O51. -/
theorem statusFrameReturnsStatus : Obligations.StatusFrameReturnsStatus := by
  intro s x low dontCare valid here idle
  exact runSlots_statusFrame valid here idle x low dontCare

/-- Settles O52: two status frames in a row, the second of which finds the flags that the first cleared. -/
theorem secondPollReturnsZero : Obligations.SecondPollReturnsZero := by
  intro s valid here idle
  have first : runSlots (frameBytes s.cfg .status) s = .next (polled 0 s) := runSlots_statusFrame valid here idle 0 0 0
  have second : runSlots (frameBytes s.cfg .status) (polled 0 s) = .next (polled 0 (polled 0 s)) :=
    runSlots_statusFrame (s := polled 0 s) valid here idle 0 0 0
  refine ⟨polled 0 (polled 0 s), ?_, ?_, here⟩
  · rw [runSlots_append, first, andThen_next, second]
  · rw [polled, statusMux_polled]
    simp [polled]

/-! ### What a run of slots emits -/

/-- R160: one byte a transmit step. -/
theorem transmit_emitted {s t : State} (sent : transmit s = .next t) : ∃ b, t.emitted = s.emitted ++ [b] := by
  obtain ⟨_, rfl⟩ | ⟨_, _, rfl⟩ | ⟨_, rfl⟩ := transmit_eq_next sent <;> exact ⟨_, rfl⟩

/-- R165: one byte a slot, after what was emitted before. -/
theorem runSlots_emitted {bytes : List Byte} {s t : State} (ran : runSlots bytes s = .next t) :
    ∃ out, out.length = bytes.length ∧ t.emitted = s.emitted ++ out := by
  induction bytes generalizing s with
  | nil =>
    cases ran
    exact ⟨[], rfl, (List.append_nil _).symm⟩
  | cons b rest ih =>
    rw [runSlots_cons] at ran
    obtain ⟨u, sent, ran⟩ := andThen_eq_next.mp ran
    obtain ⟨v, received, ran⟩ := andThen_eq_next.mp ran
    obtain ⟨out, counted, emitted⟩ := ih ran
    obtain ⟨first, sent⟩ := transmit_emitted sent
    refine ⟨first :: out, by rw [List.length_cons, List.length_cons, counted], ?_⟩
    rw [emitted, receiveIfPresent_emitted (rx := some b) received, sent, List.append_assoc, List.singleton_append]

/-- The bytes emitted up to a state stand in every later log. -/
theorem take_emitted_of_runSlots {bytes : List Byte} {s t : State} (ran : runSlots bytes s = .next t) :
    t.emitted.take s.emitted.length = s.emitted := by
  obtain ⟨out, _, emitted⟩ := runSlots_emitted ran
  rw [emitted, List.take_left']
  rfl

/-- Settles O54: the common slots leave one state, whose transmit step emits the byte of slot `k` before the master's byte
of that slot is received. -/
theorem slaveBytesFollowEarlierSlots : Obligations.SlaveBytesFollowEarlierSlots := by
  intro s t t' before after after' some some' ran ran'
  obtain ⟨b, rest, rfl⟩ := List.exists_cons_of_ne_nil some
  obtain ⟨b', rest', rfl⟩ := List.exists_cons_of_ne_nil some'
  rw [runSlots_append] at ran ran'
  obtain ⟨u, common, ran⟩ := andThen_eq_next.mp ran
  rw [common, andThen_next, runSlots_cons] at ran'
  rw [runSlots_cons] at ran
  obtain ⟨v, sent, ran⟩ := andThen_eq_next.mp ran
  rw [sent, andThen_next] at ran'
  obtain ⟨w, received, ran⟩ := andThen_eq_next.mp ran
  obtain ⟨w', received', ran'⟩ := andThen_eq_next.mp ran'
  have length : v.emitted.length = s.emitted.length + before.length + 1 := by
    obtain ⟨out, counted, emitted⟩ := runSlots_emitted common
    obtain ⟨_, sent⟩ := transmit_emitted sent
    rw [sent, emitted, List.length_append, List.length_append, List.length_singleton, counted]
  have kept := take_emitted_of_runSlots ran
  have kept' := take_emitted_of_runSlots ran'
  rw [receiveIfPresent_emitted (rx := Option.some b) received, length] at kept
  rw [receiveIfPresent_emitted (rx := Option.some b') received', length] at kept'
  rw [kept, kept']

/-! ### Abandoned frames -/

/-- R182: a control byte that starts a frame, and then a bad sync byte, which changes `state` alone: what is left is any state
between frames that differs from the started one in `state` alone. -/
theorem runEvents_abandoned {s u t : State} {b bad : Byte} (received : receive b s = .next u)
    (atSync : u.state = .awaitSync) (other : highNibble bad ≠ u.cfg.sync2) (back : t.state = .awaitControl)
    (same : abandonFrame u = abandonFrame t) : runEvents (receiveEvents [b, bad]) s = .next t := by
  rw [runEvents_receive_cons, received, andThen_next, runEvents_receive_cons, receive_otherSync atSync other, same,
    abandonFrame_of_control back]
  rfl

/-- Settles O56: each control byte does its own, and the bad sync byte only returns to `AWAIT_CONTROL`, the state that the
frame began in. -/
theorem abandonedFrameKeepsControlEffects : Obligations.AbandonedFrameKeepsControlEffects := by
  intro s x bad valid here other
  rw [bits_7_4_eq_highNibble] at other
  refine ⟨?_, ?_, ?_, fun len hasLength latch => ?_, fun len hasLength latch => ?_⟩
  · exact runEvents_abandoned (receive_statusRead valid here x) rfl other here rfl
  · exact runEvents_abandoned (receive_init valid here true x) rfl other here rfl
  · exact runEvents_abandoned (receive_init valid here false x) rfl other here rfl
  · exact runEvents_abandoned (receive_readData valid here (by simp [hasLength]) latch x) rfl other here rfl
  · exact runEvents_abandoned (receive_writeData valid here (by simp [hasLength]) latch x) rfl other here rfl

end Sys2Proof.Machine
end

section
/-! PROOFS. Resynchronisation (70_reset_and_hazards.md section 2): bytes with neither sync nibble bring the decoder back to
`AWAIT_CONTROL`, each by one byte nearer. -/

namespace Sys2Proof.Machine

/-- How many more bytes the decoder may take before it is back in `AWAIT_CONTROL`, if none of them is a sync byte. -/
def bytesToControl (s : State) : Nat :=
  match s.state with
  | .awaitControl => 0
  | .awaitSync => 1
  | .awaitLenLow => 3
  | .awaitAddrHi => 2
  | .awaitAddrLo => 1
  | .transferRead => (s.length.getD 0).toNat - s.rdCursor.toNat
  | .transferWrite => (s.length.getD 0).toNat - s.wrCursor.toNat
  | .awaitStatusSent => 1

theorem bytesToControl_of_control {s : State} (here : s.state = .awaitControl) : bytesToControl s = 0 := by
  rw [bytesToControl, here]

/-- A byte that is no sync byte of either kind. -/
def Unsynced (c : Cfg) (b : Byte) : Prop := highNibble b ≠ c.sync1 ∧ highNibble b ≠ c.sync2

section
variable {s : State} (h : Inv s)
include h

/-- R44 (c), (d): in a transfer there is a byte to come. -/
theorem Inv.state_eq_of_bytesToControl_eq_zero (none : bytesToControl s = 0) : s.state = .awaitControl := by
  unfold bytesToControl at none
  cases here : s.state <;> simp only [here] at none
  case awaitControl => rfl
  case transferRead =>
    obtain ⟨len, hasLength, below⟩ := h.readInRange here
    rw [hasLength, Option.getD_some] at none
    omega
  case transferWrite =>
    obtain ⟨len, hasLength, below⟩ := h.writeInRange here
    rw [hasLength, Option.getD_some] at none
    omega
  all_goals omega

/-- R44 (a): a transfer is no longer than the buffer. -/
theorem Inv.bytesToControl_le : bytesToControl s ≤ max 3 s.cfg.maxFrameLen := by
  have short : ∀ cursor : Word16, (s.length.getD 0).toNat - cursor.toNat ≤ s.cfg.maxFrameLen := by
    intro cursor
    cases hasLength : s.length with
    | none => simp
    | some len =>
      have := (h.lengthLegal len hasLength).2
      rw [Option.getD_some]
      omega
  have := short s.rdCursor
  have := short s.wrCursor
  unfold bytesToControl
  cases s.state <;> simp only [] <;> omega

/-- Each byte that is no sync byte brings the decoder one byte nearer. -/
theorem Inv.receive_unsynced {b : Byte} (unsynced : Unsynced s.cfg b) :
    ∃ t, receive b s = .next t ∧ bytesToControl t ≤ bytesToControl s - 1 := by
  obtain ⟨sync1, sync2⟩ := unsynced
  obtain ⟨t, received, next⟩ | ⟨_, _, ⟨x, rfl⟩, _⟩ := h.receive_answers b
  · refine ⟨t, received, ?_⟩
    have reached (control : t.state = .awaitControl) : bytesToControl t ≤ bytesToControl s - 1 := by
      rw [bytesToControl_of_control control]
      exact Nat.zero_le _
    unfold Claims.tableNextState at next
    cases here : s.state <;> simp only [here] at next
    case awaitControl => exact reached (next.trans (if_neg sync1))
    case awaitSync => exact reached (next.trans (if_neg sync2))
    case awaitAddrLo | awaitStatusSent => exact reached next
    case awaitLenLow =>
      split at next
      · simp only [bytesToControl, next, here]
        omega
      · exact reached next
    case awaitAddrHi =>
      simp only [bytesToControl, next, here]
      omega
    case transferRead =>
      obtain ⟨len, hasLength, below⟩ := h.readInRange here
      have explicit := (receive_of_transferRead here hasLength b).symm.trans received
      by_cases last : s.rdCursor + 1 = len
      · exact reached (next.trans (if_pos (by rw [last, hasLength])))
      · rw [if_neg last] at explicit
        cases explicit
        have counted := nextCursor_toNat below
        simp only [bytesToControl, here, hasLength, Option.getD_some, nextCursor] at counted ⊢
        omega
    case transferWrite =>
      obtain ⟨len, hasLength, below, inRange⟩ := h.writeCursor_lt here
      have explicit := (receive_of_transferWrite here hasLength inRange b).symm.trans received
      by_cases last : s.wrCursor + 1 = len
      · exact reached (next.trans (if_pos (by rw [last, hasLength])))
      · rw [if_neg last] at explicit
        cases explicit
        have counted := nextCursor_toNat below
        simp only [bytesToControl, here, hasLength, Option.getD_some, nextCursor] at counted ⊢
        omega
  · exact absurd (highNibble_controlByte s.cfg _ x) sync1

end

/-- The bytes bring the decoder back once they are as many as it may take. -/
theorem runEvents_unsynced {bytes : List Byte} {s : State} (h : Inv s) (enough : bytesToControl s ≤ bytes.length)
    (unsynced : ∀ b ∈ bytes, Unsynced s.cfg b) :
    ∃ t, runEvents (receiveEvents bytes) s = .next t ∧ t.state = .awaitControl := by
  induction bytes generalizing s with
  | nil => exact ⟨s, rfl, h.state_eq_of_bytesToControl_eq_zero (Nat.le_zero.mp enough)⟩
  | cons b rest ih =>
    rw [List.length_cons] at enough
    obtain ⟨u, received, nearer⟩ := h.receive_unsynced (unsynced b List.mem_cons_self)
    have cfg : u.cfg = s.cfg := (received_of_receive received).cfg_eq
    have unsyncedRest : ∀ b ∈ rest, Unsynced u.cfg b := fun b inRest => cfg ▸ unsynced b (List.mem_cons_of_mem _ inRest)
    obtain ⟨t, onward, back⟩ := ih (h.of_receive received) (by omega) unsyncedRest
    exact ⟨t, by rw [runEvents_receive_cons, received, andThen_next, onward], back⟩

/-- Settles O53: no state is farther from `AWAIT_CONTROL` than that many bytes. -/
theorem flushReturnsToControl : Obligations.FlushReturnsToControl :=
  fun _ _ h enough unsynced => runEvents_unsynced h (h.bytesToControl_le.trans enough) unsynced

end Sys2Proof.Machine
end

section
/-! PROOFS. The pseudo-instructions (30_encoding.md R96): frames and polls as parts of a script, what the transactions wait
for, and the dispatcher call that ends the wait. -/

namespace Sys2Proof.Machine

/-! ### Between frames -/

/-- A state that meets the invariant, between frames and with an IDLE sequencer: where a master may start one. -/
structure Between (s : State) : Prop where
  inv : Inv s
  control : s.state = .awaitControl
  idle : s.txMode = .idle

theorem Inv.of_runSlots {bytes : List Byte} {s t : State} (h : Inv s) (ran : runSlots bytes s = .next t) : Inv t :=
  h.of_runEvents ran

/-- A script's frame, run. -/
theorem runScript_frame {σ : Type} {C : Collaborator σ} {f : Frame} {s t : State}
    (ran : runSlots (frameBytes s.cfg f) s = .next t) (rest : List ScriptStep) (calls : List Nat) (store : σ) :
    runScript C (.frame f :: rest) calls store s =
      (runScript C rest calls store t).prepend (frameData f (returnedBytes s t)) := by
  simp only [runScript, ran]

/-! ### A poll -/

/-- The bits that answer a transaction and tell its failure (R150). -/
theorem statusMux_bits (s : State) :
    (statusMux s).getLsbD 0 = s.readDataReady ∧ (statusMux s).getLsbD 1 = s.writeDataComplete ∧
      (statusMux s).getLsbD 4 = s.writeRegError ∧ (statusMux s).getLsbD 5 = s.readRegError := by
  have : ∀ a b c d e f : Bool,
      let m := flagBit a 0x01 ||| flagBit b 0x02 ||| flagBit c 0x04 ||| flagBit d 0x08 ||| flagBit e 0x10 |||
        flagBit f 0x20
      m.getLsbD 0 = a ∧ m.getLsbD 1 = b ∧ m.getLsbD 4 = e ∧ m.getLsbD 5 = f := by decide
  exact this _ _ _ _ _ _

/-- What a master reads of a poll: the status byte of the flags as they were. -/
theorem frameData_polled (s : State) : frameData .status (returnedBytes s (polled 0 s)) = [statusMux s] := by
  have returned : returnedBytes s (polled 0 s) = [0x00, statusMux s, 0x00] := returnedBytes_of_append rfl
  rw [returned, frameData_status]

theorem statusBitSet_polled (s : State) (bit : Fin 8) :
    statusBitSet s (polled 0 s) bit = (statusMux s).getLsbD bit := by
  rw [statusBitSet, frameData_polled, List.any_cons, List.any_nil, Bool.or_false]

theorem Between.runSlots_poll {s : State} (b : Between s) :
    runSlots (frameBytes s.cfg .status) s = .next (polled 0 s) :=
  runSlots_statusFrame b.inv.cfgValid b.control b.idle 0 0 0

theorem Between.of_poll {s : State} (b : Between s) : Between (polled 0 s) :=
  ⟨b.inv.of_runSlots b.runSlots_poll, b.control, b.idle⟩

/-- Polls with no dispatcher call before them, while the awaited bit does not come: what holds of the state and is kept by a
poll still holds after them, and the script goes on from there. -/
theorem runScript_earlyPolls {σ : Type} (C : Collaborator σ) {flag fail : Fin 8} {P : State → Prop}
    (between : ∀ s, P s → Between s) (notYet : ∀ s, P s → (statusMux s).getLsbD flag = false)
    (kept : ∀ s, P s → P (polled 0 s)) (rest : List ScriptStep) (early : Nat) (store : σ) {s : State} (holds : P s) :
    ∃ t, P t ∧ ∀ schedule,
      runScript C (.pollUntil flag fail :: rest) (List.replicate early 0 ++ schedule) store s =
        runScript C (.pollUntil flag fail :: rest) schedule store t := by
  induction early generalizing s with
  | zero => exact ⟨s, holds, fun _ => rfl⟩
  | succ n ih =>
    obtain ⟨t, holdsAfter, ran⟩ := ih (kept s holds)
    have bit : statusBitSet s (polled 0 s) flag = false := by rw [statusBitSet_polled, notYet s holds]
    refine ⟨t, holdsAfter, fun schedule => ?_⟩
    have repeated : pollUntil C flag fail (0 :: (List.replicate n 0 ++ schedule)) store s =
        pollUntil C flag fail (List.replicate n 0 ++ schedule) store (polled 0 s) :=
      pollUntil_repeated (n := 0) _ rfl (between s holds).runSlots_poll bit
    rw [← ran schedule, List.replicate_succ, List.cons_append]
    simp only [runScript, repeated]

/-- A poll after dispatcher calls that end the wait. -/
theorem pollUntil_served {σ : Type} {C : Collaborator σ} {flag : Fin 8} (fail : Fin 8) {n : Nat} {store store' : σ}
    {s t : State} (calls : List Nat) (served : dispatchTimes C n store s = (.next t, store')) (b : Between t)
    (bit : (statusMux t).getLsbD flag = true) :
    pollUntil C flag fail (n :: calls) store s = .answered ((statusMux t).getLsbD fail) calls (polled 0 t) store' := by
  rw [pollUntil_answered calls served b.runSlots_poll (by rw [statusBitSet_polled, bit]), statusBitSet_polled]

/-- Settles O59: the script is one status frame. -/
theorem pollReturnsStatusByte : Obligations.PollReturnsStatusByte := by
  intro σ C store s calls valid here idle
  have ran : runSlots (frameBytes s.cfg .status) s = .next (polled 0 s) := runSlots_statusFrame valid here idle 0 0 0
  refine ⟨polled 0 s, ?_, rfl, statusMux_polled 0 s, here⟩
  rw [runTransaction, transactionSteps, runScript_frame ran, frameData_polled]
  rfl

/-! ### WRITE -/

/-- The wait of a WRITE: its operands committed, its data in the buffer, its request pending. -/
structure WriteWaiting (len addr : Word16) (data : List Byte) (calls : List RegCall) (s : State) : Prop
    extends Between s where
  noRead : s.readDataReq = false
  pending : s.writeDataReq = true
  incomplete : s.writeDataComplete = false
  hasLength : s.length = some len
  hasAddress : s.address = some addr
  buffered : Memory.readList s.payload 0 len.toNat = data
  made : s.regCalls = calls

section
variable {len addr : Word16} {data : List Byte} {calls : List RegCall} {s : State}

theorem WriteWaiting.of_poll (w : WriteWaiting len addr data calls s) : WriteWaiting len addr data calls (polled 0 s) :=
  { w with toBetween := w.toBetween.of_poll, incomplete := rfl }

/-- The two frames of a WRITE lead to its wait. -/
theorem runScript_writeFrames {σ : Type} (C : Collaborator σ) (b : Between s) (noRead : s.readDataReq = false)
    (incomplete : s.writeDataComplete = false) (legal : legalLength s.cfg len)
    (sized : data.length = len.toNat) (rest : List ScriptStep) (store : σ) :
    ∃ t, WriteWaiting len addr data s.regCalls t ∧ ∀ schedule,
      runScript C (.frame (.winit len addr) :: .frame (.wdata len data) :: rest) schedule store s =
        runScript C rest schedule store t := by
  have back := Memory.readList_writeList (a := 0) data b.inv.payloadWf (by rw [sized, Nat.zero_add]; exact legal.2)
  have committed := (winitFrame_quiet b.inv.cfgValid b.control legal addr).runSlots b.idle
  have inv := b.inv.of_runSlots committed
  have filled := (writeFrame_quiet (len := len) inv.cfgValid b.control rfl rfl legal sized).runSlots b.idle
  refine ⟨_, ⟨⟨inv.of_runSlots filled, b.control, b.idle⟩, ?_, rfl, incomplete, rfl, rfl, ?_, rfl⟩, fun schedule => ?_⟩
  · exact (Bool.or_false _).trans noRead
  · exact sized ▸ back
  · rw [runScript_frame committed, runScript_frame filled]
    simp only [frameData, ScriptEnd.prepend_nil]

theorem WriteWaiting.of_writeServed (w : WriteWaiting len addr data calls s) (failed : Bool) :
    Between (writeServed len addr data failed s) :=
  ⟨{ w.inv with requestsServable := by simp [writeServed, w.noRead] }, w.control, w.idle⟩

theorem dispatchWith_of_writeWaiting {σ : Type} (C : Collaborator σ) (store : σ)
    (w : WriteWaiting len addr data calls s) :
    dispatchWith C store s =
      (.next (writeServed len addr data (C.regWrite store len addr data).1 s), (C.regWrite store len addr data).2) := by
  have read : readBranchWith C store s = (.next s, store) := by
    simp only [readBranchWith, w.noRead, readBranch_of_no_request w.noRead]
  have write := writeBranch_of_request w.pending w.hasLength w.hasAddress ⟨(C.regWrite store len addr data).1, []⟩
  rw [w.buffered] at write
  simp only [dispatchWith, read, writeBranchWith, w.pending, w.hasLength, w.hasAddress, w.buffered, write, writeServed]

/-- The first dispatcher call serves the wait, and those after it find nothing to do. -/
theorem pollUntil_writeServed {σ : Type} (C : Collaborator σ) (store : σ) (w : WriteWaiting len addr data calls s)
    (more : Nat) (later : List Nat) :
    pollUntil C 1 4 ((more + 1) :: later) store s =
      .answered (C.regWrite store len addr data).1 later
        (polled 0 (writeServed len addr data (C.regWrite store len addr data).1 s)) (C.regWrite store len addr data).2 := by
  obtain ⟨_, complete, failed, _⟩ := statusMux_bits (writeServed len addr data (C.regWrite store len addr data).1 s)
  have served := dispatchTimes_succ more (dispatchWith_of_writeWaiting C store w) w.noRead rfl
  rw [pollUntil_served 4 later served (w.of_writeServed _) complete]
  exact congrArg (PollEnd.answered · later _ _) failed

end

/-- A length of R87. -/
theorem allowsLength_iff {c : Cfg} {len : Word16} : c.allowsLength len = true ↔ legalLength c len := lengthIsValid_iff

/-- The length of a well-formed WRITE is legal and counts its data (R96). -/
theorem legalLength_of_write {c : Cfg} (valid : c.Valid) {addr : Word16} {data : List Byte}
    (wf : (Transaction.write addr data).wellFormed c = true) :
    legalLength c (BitVec.ofNat 16 data.length) ∧ data.length = (BitVec.ofNat 16 data.length).toNat := by
  obtain ⟨some, fits⟩ : 0 < data.length ∧ data.length ≤ c.maxFrameLen := by
    simpa [Transaction.wellFormed] using wf
  have sized : (BitVec.ofNat 16 data.length).toNat = data.length := by
    have := valid.2.2
    rw [BitVec.toNat_ofNat, Nat.mod_eq_of_lt (by omega)]
  rw [legalLength, sized]
  exact ⟨⟨some, fits⟩, rfl⟩

/-- WRITE up to the first dispatcher call: its wait, after any number of early polls. -/
theorem runTransaction_write_waits {σ : Type} (C : Collaborator σ) (store : σ) {s : State} {addr : Word16}
    {data : List Byte} (b : Between s) (noRead : s.readDataReq = false) (incomplete : s.writeDataComplete = false)
    (wf : (Transaction.write addr data).wellFormed s.cfg = true) (early : Nat) :
    ∃ w, WriteWaiting (BitVec.ofNat 16 data.length) addr data s.regCalls w ∧
      ∀ schedule, runTransaction C (.write addr data) (List.replicate early 0 ++ schedule) store s =
        runScript C [.pollUntil 1 4] schedule store w := by
  obtain ⟨legal, sized⟩ := legalLength_of_write b.inv.cfgValid wf
  obtain ⟨u, sent, framed⟩ := runScript_writeFrames (addr := addr) C b noRead incomplete legal sized [.pollUntil 1 4] store
  obtain ⟨w, waits, polls⟩ := runScript_earlyPolls (flag := 1) (fail := 4) C (fun _ w => w.toBetween)
    (fun s w => (statusMux_bits s).2.1.trans w.incomplete) (fun _ w => w.of_poll) [] early store sent
  exact ⟨w, waits, fun schedule => (framed _).trans (polls schedule)⟩

/-- A repetition of STATUS that is answered: failure ends the script, else it goes on. -/
theorem runScript_answered {σ : Type} {C : Collaborator σ} {flag fail : Fin 8} {schedule later : List Nat}
    {store store' : σ} {failed : Bool} {s t : State} (rest : List ScriptStep)
    (answered : pollUntil C flag fail schedule store s = .answered failed later t store') :
    runScript C (.pollUntil flag fail :: rest) schedule store s =
      if failed then .ended true [] t store' else runScript C rest later store' t := by
  cases failed <;> simp only [runScript, answered, if_true, Bool.false_eq_true, if_false]

/-- WRITE from its wait: the first dispatcher call and the poll after it. -/
theorem runScript_writeServed {σ : Type} (C : Collaborator σ) (store : σ) {s : State} {len addr : Word16}
    {data : List Byte} {calls : List RegCall} (w : WriteWaiting len addr data calls s) (more : Nat) (later : List Nat) :
    runScript C [.pollUntil 1 4] ((more + 1) :: later) store s =
      .ended (C.regWrite store len addr data).1 []
        (polled 0 (writeServed len addr data (C.regWrite store len addr data).1 s)) (C.regWrite store len addr data).2 := by
  rw [runScript_answered [] (pollUntil_writeServed C store w more later)]
  cases (C.regWrite store len addr data).1 <;> rfl

/-- Settles O57: the wait, and then the first dispatcher call and its poll, or the end of the schedule. -/
theorem writeTransactionCompletes : Obligations.WriteTransactionCompletes := by
  intro σ C store s addr data early more later h here idle noRead _ incomplete wf len
  obtain ⟨w, waits, ran⟩ := runTransaction_write_waits C store ⟨h, here, idle⟩ noRead incomplete wf early
  constructor
  · refine ⟨_, (ran _).trans (runScript_writeServed C store waits more later), ?_, rfl, rfl,
      waits.control, waits.idle⟩
    exact congrArg (· ++ [RegCall.write len addr data]) waits.made
  · have ended := ran []
    rw [List.append_nil] at ended
    exact ⟨w, ended, waits.made, waits.pending, waits.control⟩

/-! ### READ -/

/-- The wait of a READ: its operands committed, its request pending. -/
structure ReadWaiting (len addr : Word16) (calls : List RegCall) (s : State) : Prop extends Between s where
  pending : s.readDataReq = true
  noWrite : s.writeDataReq = false
  notReady : s.readDataReady = false
  latch : s.direction = true
  hasLength : s.length = some len
  hasAddress : s.address = some addr
  made : s.regCalls = calls

section
variable {len addr : Word16} {calls : List RegCall} {s : State}

theorem ReadWaiting.of_poll (w : ReadWaiting len addr calls s) : ReadWaiting len addr calls (polled 0 s) :=
  { w with toBetween := w.toBetween.of_poll, notReady := rfl }

theorem ReadWaiting.legal (w : ReadWaiting len addr calls s) : legalLength s.cfg len :=
  w.inv.lengthLegal len w.hasLength

/-- READ up to the first dispatcher call: its wait, after any number of early polls. -/
theorem runTransaction_read_waits {σ : Type} (C : Collaborator σ) (store : σ) (b : Between s)
    (noWrite : s.writeDataReq = false) (notReady : s.readDataReady = false) (legal : legalLength s.cfg len)
    (early : Nat) :
    ∃ w, ReadWaiting len addr s.regCalls w ∧
      ∀ schedule, runTransaction C (.read addr len) (List.replicate early 0 ++ schedule) store s =
        runScript C [.pollUntil 0 5, .frame (.rdata len)] schedule store w := by
  have committed := (rinitFrame_quiet b.inv.cfgValid b.control legal addr).runSlots b.idle
  have sent : ReadWaiting len addr s.regCalls _ :=
    ⟨⟨b.inv.of_runSlots committed, b.control, b.idle⟩, Bool.or_true _, noWrite, notReady, rfl, rfl, rfl, rfl⟩
  obtain ⟨w, waits, polls⟩ := runScript_earlyPolls (flag := 0) (fail := 5) C (fun _ w => w.toBetween)
    (fun s w => (statusMux_bits s).1.trans w.notReady) (fun _ w => w.of_poll) [.frame (.rdata len)] early store sent
  refine ⟨w, waits, fun schedule => ?_⟩
  rw [runTransaction, transactionSteps, runScript_frame committed, ← polls schedule]
  simp only [frameData, ScriptEnd.prepend_nil]

theorem dispatchWith_of_readWaiting {σ : Type} (C : Collaborator σ) (store : σ) (w : ReadWaiting len addr calls s)
    (asked : (C.regRead store len addr).1.bytes.length = len.toNat) :
    dispatchWith C store s =
      (.next (readServed len addr (C.regRead store len addr).1 s), (C.regRead store len addr).2) := by
  have read := readBranch_of_request w.pending w.hasLength w.hasAddress asked
  have noWrite : (readServed len addr (C.regRead store len addr).1 s).writeDataReq = false := w.noWrite
  simp only [dispatchWith, readBranchWith, w.pending, w.hasLength, w.hasAddress, read, writeBranchWith, noWrite,
    writeBranch_of_no_request noWrite]

theorem ReadWaiting.of_readServed (w : ReadWaiting len addr calls s) {answer : RegAnswer}
    (asked : answer.bytes.length = len.toNat) : Between (readServed len addr answer s) :=
  ⟨{ w.inv with
      requestsServable := by simp [readServed, w.noWrite]
      payloadWf := Memory.wf_writeList answer.bytes w.inv.payloadWf (by rw [asked, Nat.zero_add]; exact w.legal.2) },
    w.control, w.idle⟩

/-- The first dispatcher call serves the wait, and those after it find nothing to do. -/
theorem pollUntil_readServed {σ : Type} (C : Collaborator σ) (store : σ) (w : ReadWaiting len addr calls s)
    (asked : (C.regRead store len addr).1.bytes.length = len.toNat) (more : Nat) (later : List Nat) :
    pollUntil C 0 5 ((more + 1) :: later) store s =
      .answered (C.regRead store len addr).1.failed later
        (polled 0 (readServed len addr (C.regRead store len addr).1 s)) (C.regRead store len addr).2 := by
  obtain ⟨ready, _, _, failed⟩ := statusMux_bits (readServed len addr (C.regRead store len addr).1 s)
  have served := dispatchTimes_succ more (dispatchWith_of_readWaiting C store w asked) rfl w.noWrite
  rw [pollUntil_served 5 later served (w.of_readServed asked) ready]
  exact congrArg (PollEnd.answered · later _ _) failed

end

/-- The data of a read data frame are the buffer's bytes from index 0 (R222). -/
theorem runSlots_rdata {s : State} {len : Word16} (b : Between s) (latch : s.direction = true)
    (hasLength : s.length = some len) :
    ∃ t, runSlots (frameBytes s.cfg (.rdata len)) s = .next t ∧
      frameData (.rdata len) (returnedBytes s t) = Memory.readList s.payload 0 len.toNat ∧
      t.regCalls = s.regCalls ∧ t.readDataReq = s.readDataReq ∧ t.readDataReady = s.readDataReady ∧
      t.state = .awaitControl ∧ t.txMode = .idle := by
  have legal := b.inv.lengthLegal len hasLength
  have ran := runSlots_readFrame b.inv.cfgValid b.control latch hasLength legal (bytes := List.replicate len.toNat 0)
    (by simp) (transmit_of_idle b.idle) 0 (lengthNibble len)
  refine ⟨_, ran, ?_, rfl, rfl, rfl, rfl, rfl⟩
  have capacity := legal.2
  have bytes : ((List.range (len.toNat + 1)).map fun i => Memory.read s.payload ((0 + i) % s.cfg.maxFrameLen)).take
      len.toNat = Memory.readList s.payload 0 len.toNat := by
    rw [← List.map_take, List.take_range, Nat.min_eq_left (Nat.le_succ _), Memory.readList]
    refine List.map_congr_left fun i inRange => ?_
    rw [List.mem_range] at inRange
    rw [Nat.mod_eq_of_lt (by omega)]
  rw [returnedBytes_of_append (List.append_assoc _ _ _)]
  exact bytes

/-- Settles O58: the wait, the first dispatcher call and its poll, and then the frame that returns the buffer unless the poll
told failure. -/
theorem readTransactionReturnsData : Obligations.ReadTransactionReturnsData := by
  intro σ C store s addr len early more later h here idle _ noWrite notReady wf answer asked
  have legal : legalLength s.cfg len := allowsLength_iff.mp wf
  obtain ⟨w, waits, ran⟩ := runTransaction_read_waits (addr := addr) C store ⟨h, here, idle⟩ noWrite notReady legal early
  constructor
  · have answered := pollUntil_readServed C store waits asked more later
    have b := (waits.of_readServed asked).of_poll
    have made : s.regCalls ++ [RegCall.read len addr] = _ := congrArg (· ++ [RegCall.read len addr]) waits.made.symm
    rw [ran, runScript_answered _ answered]
    cases failed : (C.regRead store len addr).1.failed with
    | true => exact ⟨polled 0 (readServed len addr answer w), rfl, made.symm, rfl, rfl, b.control, b.idle⟩
    | false =>
      obtain ⟨t, sent, data, calls, request, ready, control, idle⟩ := runSlots_rdata b waits.latch waits.hasLength
      have back := Memory.readList_writeList (a := 0) answer.bytes waits.inv.payloadWf
        (by rw [asked, Nat.zero_add]; exact waits.legal.2)
      rw [asked] at back
      refine ⟨t, ?_, calls.trans made.symm, request, ready, control, idle⟩
      rw [if_neg Bool.false_ne_true, if_neg Bool.false_ne_true, runScript_frame sent, data]
      exact congrArg (ScriptEnd.ended false · t _) ((List.append_nil _).trans back)
  · have ended := ran []
    rw [List.append_nil] at ended
    exact ⟨w, ended, waits.made, waits.pending, waits.control⟩

/-! ### The round trip -/

/-- Settles O60: the WRITE leaves the range written in the store and nothing pending, so the READ is answered, and with the
bytes that the store reads back. -/
theorem writeThenReadReturnsData : Obligations.WriteThenReadReturnsData := by
  intro size store s addr data h here idle noRead noWrite notReady incomplete wf storeWf fits
  obtain ⟨_, sized⟩ := legalLength_of_write h.cfgValid wf
  obtain ⟨w, waits, ran⟩ := runTransaction_write_waits passThrough store ⟨h, here, idle⟩ noRead incomplete wf 0
  have written := (ran [1]).trans (runScript_writeServed passThrough store waits 0 [])
  have b := (waits.of_writeServed false).of_poll
  have back := passThroughReadsBack store size _ addr data storeWf fits sized
  obtain ⟨⟨u, read, _⟩, _⟩ := readTransactionReturnsData Memory passThrough _ _ addr (BitVec.ofNat 16 data.length) 0 0 []
    b.inv b.control b.idle waits.noRead rfl rfl (allowsLength_iff.mpr (waits.inv.lengthLegal _ waits.hasLength))
    ((congrArg (fun answer => answer.bytes.length) back).trans sized)
  rw [back] at read
  exact ⟨_, _, u, written, read⟩

end Sys2Proof.Machine
end
